-- ==== Sys2Proof/Word.lean ====
section
/-! DEFINITION. The word types of the engine: 00_scope.md R8. Everything is unsigned; arithmetic on a
`BitVec n` is arithmetic mod 2^n, which is the `+` of R10. -/

namespace Sys2Proof

/-- `u32` of R8: a register, a message word, a command word. -/
abbrev Word := BitVec 32

/-- `u8` of R8: one message byte. -/
abbrev Byte := BitVec 8

/-- `u64` of R8: the length counter. -/
abbrev Len := BitVec 64

end Sys2Proof
end

