-- ==== Sys2Proof/Syntax.lean ====
section
/-! DEFINITION. The engine's two formats (30_encoding.md R90): commands (format C) and register accesses
(format A), and the events of its surroundings (44_commands.md R200). -/

namespace Sys2Proof

/-- The commands, one constructor per row of opcode_table.json (R91). The only operand is the byte count NB of
FINAL, the six bits cmd[13:8] (R92); no command names a register (R93). -/
inductive Instr where
  | nop
  | init
  | block
  | final (nb : BitVec 6)
  | clrerr
deriving DecidableEq, Repr

/-- The registers of the window (20_memory.md R64). -/
inductive Reg where
  | cmd
  | status
  | lenLo
  | lenHi
  | msg (j : Fin 16)
  | hash (i : Fin 8)
  | reserved
deriving DecidableEq, Repr

/-- Format A: one host bus transaction (R90, R99): a direction, a window offset, for a write the data, and the
size in bytes of `MemRead(addr, size)` and `MemWrite(addr, size, v)` (00_scope.md R12). Sizes and offsets that
R63 does not admit can be written down here, and the machine refuses them. -/
inductive Access where
  | read (size : Nat) (offset : BitVec 8)
  | write (size : Nat) (offset : BitVec 8) (data : Word)
deriving DecidableEq, Repr

/-- What the surroundings do to the engine, one step each (R200): a host access, a turn of the host's WAIT loop
(R100), a platform reset (R280). -/
inductive Event where
  /-- One register access of the host. -/
  | bus (a : Access)
  /-- The host's loop WAIT: read STATUS until bit 0 of the value read is 0. -/
  | wait
  /-- The platform resets the engine. -/
  | reset
deriving DecidableEq, Repr

end Sys2Proof
end

