-- ==== Sys2Proof/WellFormed.lean ====
section
/-! DEFINITION. Which terms the interface admits. -/

namespace Sys2Proof

/-- A host access is admitted when it is a 32-bit access at a window offset that is a multiple of 4
(20_memory.md R63). -/
def Access.admitted : Access → Bool
  | .read size offset => size == 4 && offset.toNat % 4 == 0
  | .write size offset _ => size == 4 && offset.toNat % 4 == 0

/-- An event is admitted when its access is; WAIT and reset always are. -/
def Event.admitted : Event → Bool
  | .bus a => a.admitted
  | .wait => true
  | .reset => true

/-- Every command term is well-formed: NB has six bits, and "its 6 bits cover every legal value. So no count of
64 or more can be encoded" (30_encoding.md R92). There is nothing left to check. -/
def Instr.wellFormed : Instr → Bool
  | .nop => true
  | .init => true
  | .block => true
  | .final _ => true
  | .clrerr => true

end Sys2Proof
end

