-- ==== Sys2Proof/Decode.lean ====
section
/-! DEFINITION. The command decoder, total on every u32 (30_encoding.md R95), and the encoder (R91, R92, R99). -/

namespace Sys2Proof

/-- Why a word is Illegal (R96). The engine itself records only the code ILLEGAL (60_exceptions.md R251). -/
inductive DecodeError where
  /-- RSV0 or RSV1 is not zero. -/
  | reservedBits
  /-- OP is 0x5 to 0xF. -/
  | reservedOp
  /-- NB is not zero and OP is not FINAL. -/
  | countNotZero
deriving DecidableEq, Repr

/-- OP, bits [3:0] of a command word (R90). -/
def fieldOp (cmd : Word) : BitVec 4 := cmd.extractLsb' 0 4

/-- RSV0, bits [7:4] (R90). -/
def fieldRsv0 (cmd : Word) : BitVec 4 := cmd.extractLsb' 4 4

/-- NB, bits [13:8] (R90, R92). -/
def fieldNb (cmd : Word) : BitVec 6 := cmd.extractLsb' 8 6

/-- RSV1, bits [31:14] (R90). -/
def fieldRsv1 (cmd : Word) : BitVec 18 := cmd.extractLsb' 14 18

/-- A command without a count: legal only when NB is zero (R91, R95). -/
def withoutCount (cmd : Word) (i : Instr) : Except DecodeError Instr :=
  if fieldNb cmd = 0 then .ok i else .error .countNotZero

/-- `decode` of R95. -/
def decode (cmd : Word) : Except DecodeError Instr :=
  if fieldRsv1 cmd ≠ 0 ∨ fieldRsv0 cmd ≠ 0 then .error .reservedBits
  else match (fieldOp cmd).toNat with
    | 0 => withoutCount cmd .nop
    | 1 => withoutCount cmd .init
    | 2 => withoutCount cmd .block
    | 3 => .ok (.final (fieldNb cmd))
    | 4 => withoutCount cmd .clrerr
    | _ => .error .reservedOp

/-- The word of a command (R91; R99: `FINAL n` is 0x03 | (n << 8)). -/
def encode : Instr → Word
  | .nop => 0x00000000
  | .init => 0x00000001
  | .block => 0x00000002
  | .final nb => 0x00000003 ||| (nb.setWidth 32 <<< 8)
  | .clrerr => 0x00000004

/-- The word whose low `nbits` bits are those of `w` and whose other bits are 0. A command is one u32, and bit i
of the bus data is bit i of the register (20_memory.md R84), so no byte order enters (log 20). -/
def tableWord (nbits w : Nat) : Word := BitVec.ofNat 32 (w % 2 ^ nbits)

/-- The instruction the decoder reads from an instruction whose bits are `w`, numbered as opcode_table.json
numbers them; a bit pattern longer than the one word of R90 is no instruction. -/
def decodeTableWord (nbits w : Nat) : Option Instr :=
  if w % 2 ^ nbits < 2 ^ 32 then (decode (tableWord nbits w)).toOption else none

end Sys2Proof
end

