-- ==== Sys2Proof/Machine/State.lean ====
section
/-! DEFINITION. The state the spec gives the engine (10_state.md section 1) and its reset values
(70_reset_and_hazards.md R280), together with the model's own fields for the engine's surroundings. -/

namespace Sys2Proof.Machine

/-- PHASE (10_state.md R37); the value 3 never occurs (R35). -/
inductive Phase where
  | idle
  | active
  | done
deriving DecidableEq, Repr

/-- ERRCODE (60_exceptions.md R251); the codes 0x4 to 0xF are never recorded. -/
inductive ErrCode where
  | none
  | illegal
  | sequence
  | busy
deriving DecidableEq, Repr

/-- A command in the one-entry slot PEND (10_state.md R42). -/
inductive Pending where
  | block
  | final (nb : BitVec 6)
deriving DecidableEq, Repr

/-- The working registers a..h (10_state.md R22). -/
structure Working where
  a : Word
  b : Word
  c : Word
  d : Word
  e : Word
  f : Word
  g : Word
  h : Word
deriving DecidableEq, Repr

/-- The engine and its surroundings, as plain data. Fields in capitals are the spec's, under its own names. -/
structure State where
  /-- H[0..7], the running hash state (R20). -/
  H : Vector Word 8
  /-- a..h, the working registers (R22). -/
  work : Working
  /-- W[0..63], the message schedule (R25). -/
  W : Vector Word 64
  /-- RND, the round index, 0 to 64 (R27). -/
  RND : Fin 65
  /-- MSG[0..15], the message block buffer (R29). -/
  MSG : Vector Word 16
  /-- LEN, the message bits taken since INIT, mod 2^64 (R32). -/
  LEN : Len
  /-- STATUS.BUSY (R36). -/
  BUSY : Bool
  /-- STATUS.PHASE (R37). -/
  PHASE : Phase
  /-- STATUS.ERR (R38). -/
  ERR : Bool
  /-- STATUS.ERRCODE (R39). -/
  ERRCODE : ErrCode
  /-- PEND, the one-entry command slot (R42). -/
  PEND : Option Pending
  /-- The model's own: the events not yet performed, oldest first (log 2). -/
  inbox : List Event
  /-- The model's own: the values the host's reads returned, oldest first (log 3). -/
  outbox : List Word
  /-- The model's own: how many further events may come before the pending command completes (log 4). -/
  slack : Nat
  /-- The model's own: how many free values have been drawn (log 4). -/
  ticks : Nat
deriving DecidableEq, Repr

/-- The engine takes no trap and nothing stops it (60_exceptions.md R258, 00_scope.md R13), so no step ever ends
in a fault: the type has no constructor (log 19). -/
inductive Fault where
deriving DecidableEq, Repr

/-- Why a step has no meaning. -/
inductive Refusal where
  /-- Raised by `exec` for a command that has no meaning yet, under its mnemonic (no arm does). Safe. -/
  | notModelled (mnemonic : String)
  /-- Raised by a host access that is not a 32-bit access at a multiple of 4: "A model must refuse them: they have
  no meaning, and no rule gives a result" (20_memory.md R63, U1, log 10). Safe. -/
  | accessNotAdmitted
deriving DecidableEq, Repr

/-- All working registers 0 (R280). -/
def Working.zero : Working := ⟨0, 0, 0, 0, 0, 0, 0, 0⟩

/-- The state right after reset (R280), with nothing placed in the inbox (log 2, 3, 4). -/
def State.reset : State where
  H := Vector.replicate 8 0
  work := Working.zero
  W := Vector.replicate 64 0
  RND := 0
  MSG := Vector.replicate 16 0
  LEN := 0
  BUSY := false
  PHASE := .idle
  ERR := false
  ERRCODE := .none
  PEND := none
  inbox := []
  outbox := []
  slack := 0
  ticks := 0

end Sys2Proof.Machine
end

