-- ==== Sys2Proof/Machine/Operands.lean ====
section
/-! DEFINITION. The u32 operators of 00_scope.md R10, byte sequences and byte order (R9; 20_memory.md R60 to R62),
and the operand forms: a block of MSG bytes and the partial block that NB selects (30_encoding.md R92). -/

namespace Sys2Proof.Machine

/-- `shr(x, n)` of R10: the logical right shift. -/
def shr (x : Word) (n : Nat) : Word := x >>> n

/-- `rotr(x, n)` of R10, for 0 < n < 32: `shr(x, n) | (x * 2^(32-n) mod 2^32)`. -/
def rotr (x : Word) (n : Nat) : Word := shr x n ||| (x <<< (32 - n))

/-- Byte k of a u32, most significant first: `w[31-8k : 24-8k]`, for k in 0..4 (R60, R61). -/
def wordByte (w : Word) (k : Nat) : Byte := w.extractLsb' (24 - 8 * k) 8

/-- `BE32(v)` of R9. -/
def be32 (v : Word) : List Byte := (List.range 4).map (wordByte v)

/-- `BE64(v)` of R9: byte k is `v[63-8k : 56-8k]`, for k in 0..8 (R62). -/
def be64 (v : Len) : List Byte := (List.range 8).map fun k => v.extractLsb' (56 - 8 * k) 8

/-- `word(B, j)` of R60: `{B[4j], B[4j+1], B[4j+2], B[4j+3]}`. A byte beyond the end counts as 0x00: no rule reads
one in a block, and it is LOADPART's "a byte index of n or more is 0x00" (30_encoding.md R100, log 21). -/
def wordOf (B : List Byte) (j : Nat) : Word :=
  B.getD (4 * j) 0 ++ B.getD (4 * j + 1) 0 ++ B.getD (4 * j + 2) 0 ++ B.getD (4 * j + 3) 0

/-- The 64 bytes MSG holds: byte k is `MSG[k/4][31-8(k%4) : 24-8(k%4)]` (R60; 44_commands.md R211). -/
def msgBytes (MSG : Vector Word 16) : List Byte :=
  (List.finRange 64).map fun k => wordByte MSG[k.val / 4] (k.val % 4)

/-- The partial block P: the first NB bytes held in MSG (30_encoding.md R92, 40_padding.md R113). -/
def partialBlock (MSG : Vector Word 16) (nb : BitVec 6) : List Byte := (msgBytes MSG).take nb.toNat

/-- MSG with every word 0 (44_commands.md R205, R216). -/
def clearedMsg : Vector Word 16 := Vector.replicate 16 0

end Sys2Proof.Machine
end

