-- ==== Sys2Proof/Machine/Compression.lean ====
section
/-! DEFINITION. The round function and the round loop (42_compression.md). -/

namespace Sys2Proof.Machine

/-- Σ1 (R150). -/
def bigSigma1 (e : Word) : Word := (rotr e 6 ^^^ rotr e 11) ^^^ rotr e 25

/-- Ch (R151). -/
def choose (e f g : Word) : Word := (e &&& f) ^^^ (~~~e &&& g)

/-- Σ0 (R152). -/
def bigSigma0 (a : Word) : Word := (rotr a 2 ^^^ rotr a 13) ^^^ rotr a 22

/-- Maj (R153). -/
def majority (a b c : Word) : Word := ((a &&& b) ^^^ (a &&& c)) ^^^ (b &&& c)

/-- T1 of a round with constant `k` and schedule word `w` (R154). -/
def temp1 (k w : Word) (r : Working) : Word :=
  (((r.h + bigSigma1 r.e) + choose r.e r.f r.g) + k) + w

/-- T2 of a round (R154). -/
def temp2 (r : Working) : Word := bigSigma0 r.a + majority r.a r.b r.c

/-- One round: all eight registers at once, from their values at its start (R156, 00_scope.md R11). -/
def compressRound (k w : Word) (r : Working) : Working where
  a := temp1 k w r + temp2 r
  b := r.a
  c := r.b
  d := r.c
  e := r.d + temp1 k w r
  f := r.e
  g := r.f
  h := r.g

/-- a <- H[0], ..., h <- H[7] (R158). -/
def Working.load (H : Vector Word 8) : Working :=
  ⟨H[0], H[1], H[2], H[3], H[4], H[5], H[6], H[7]⟩

/-- The view R[0..7] of the working registers (10_state.md R22). -/
def Working.toVector (r : Working) : Vector Word 8 :=
  #v[r.a, r.b, r.c, r.d, r.e, r.f, r.g, r.h]

/-- `CompressRounds(H, W)`: always all 64 rounds, in order (R157, R159). Marked irreducible so that no
unification unfolds the rounds. -/
@[irreducible] def compressRounds (H : Vector Word 8) (W : Vector Word 64) : Working :=
  (List.finRange 64).foldl (fun r j => compressRound K[j] W[j] r) (Working.load H)

end Sys2Proof.Machine
end

