-- ==== Sys2Proof/Machine/Padding.lean ====
section
/-! DEFINITION. The padding unit (40_padding.md). -/

namespace Sys2Proof.Machine

/-- The number of zero bytes in `pad(m)` for a message of `L` bytes: `z = (55 - L) mod 64`, "the mathematical
non-negative remainder" (R110). -/
def padZeros (L : Nat) : Nat := ((55 - (L : Int)) % 64).toNat

/-- `pad(m)`, the padding of a whole message (R110). -/
def pad (m : List Byte) : List Byte :=
  m ++ [0x80] ++ List.replicate (padZeros m.length) 0x00 ++ be64 (BitVec.ofNat 64 (8 * m.length))

/-- `LENF = (LEN + 8*NB) mod 2^64` (R114). -/
def lengthField (LEN : Len) (nb : BitVec 6) : Len := LEN + 8 * nb.setWidth 64

/-- `PadFinal` (R116; cases R115 and R117): one block when NB <= 55, two when NB >= 56. -/
def padFinal (MSG : Vector Word 16) (nb : BitVec 6) (lenf : Len) : List (List Byte) :=
  let P := partialBlock MSG nb
  if nb.toNat ≤ 55 then
    [P ++ [0x80] ++ List.replicate (55 - nb.toNat) 0x00 ++ be64 lenf]
  else
    [P ++ [0x80] ++ List.replicate (63 - nb.toNat) 0x00, List.replicate 56 0x00 ++ be64 lenf]

end Sys2Proof.Machine
end

