-- ==== Sys2Proof/Machine/Schedule.lean ====
section
/-! DEFINITION. The message schedule expander (41_schedule.md). -/

namespace Sys2Proof.Machine

/-- σ0 (R131). -/
def smallSigma0 (x : Word) : Word := (rotr x 7 ^^^ rotr x 18) ^^^ shr x 3

/-- σ1 (R132). -/
def smallSigma1 (x : Word) : Word := (rotr x 17 ^^^ rotr x 19) ^^^ shr x 10

/-- Word parse (R130): W[0..16] are the block's words; the other entries of W are left as they stood. -/
def parseInto (W : Vector Word 64) (B : List Byte) : Vector Word 64 :=
  Vector.ofFn fun j => if j.val < 16 then wordOf B j.val else W[j]

/-- One turn of the recurrence (R133, grouping R134), for j = i + 16. -/
def expandWord (W : Vector Word 64) (i : Fin 48) : Vector Word 64 :=
  W.set (i.val + 16)
    (((smallSigma1 W[i.val + 14] + W[i.val + 9]) + smallSigma0 W[i.val + 1]) + W[i.val])

/-- The expander writes all 64 words of W for one block, in increasing j (R130, R133). Marked irreducible so that
no unification unfolds its 48 turns. -/
@[irreducible] def expandInto (W : Vector Word 64) (B : List Byte) : Vector Word 64 :=
  (List.finRange 48).foldl expandWord (parseInto W B)

/-- `Expand(B)` (43_accumulate_digest.md R181): the schedule as a function of the block alone (R135). -/
def expand (B : List Byte) : Vector Word 64 := expandInto (Vector.replicate 64 0) B

end Sys2Proof.Machine
end

