-- ==== Sys2Proof/Machine/Accumulate.lean ====
section
/-! DEFINITION. The hash state accumulator, the digest and the function the engine computes
(43_accumulate_digest.md). -/

namespace Sys2Proof.Machine

/-- `H'[i] = H[i] + R[i]`, each word on its own mod 2^32 (R180). -/
def accumulate (H : Vector Word 8) (r : Working) : Vector Word 8 :=
  Vector.ofFn fun i => H[i] + r.toVector[i]

/-- `CompressBlock(H, B)` (R181). -/
def compressBlock (H : Vector Word 8) (B : List Byte) : Vector Word 8 :=
  accumulate H (compressRounds H (expand B))

/-- `Digest(H)` (R182): the eight words in order, each most significant byte first. -/
def digest (H : Vector Word 8) : List Byte := (List.finRange 8).flatMap fun i => be32 H[i]

/-- `blocks of p` (R184): `p[64i .. 64i+64]` for i in 0..len(p)/64. -/
def blocksOf (p : List Byte) : List (List Byte) :=
  (List.range (p.length / 64)).map fun i => (p.drop (64 * i)).take 64

/-- `hash(m) = Digest(fold CompressBlock H0 (blocks of pad(m)))` (R184). -/
def hashOf (m : List Byte) : List Byte := digest ((blocksOf (pad m)).foldl compressBlock H0)

end Sys2Proof.Machine
end

