-- ==== Sys2Proof/Config.lean ====
section
/-! DEFINITION. What the spec leaves open, as constants with no body (00_scope.md R7; 93_implementation_defined.md
U2, U3, U8). Nothing in Lean can evaluate them, so what is proved holds whatever they are. -/

namespace Sys2Proof

/-- The window's base address in units of 256 bytes: the platform's choice (D4, log 9). -/
opaque Config.baseIndex : Nat

/-- `BASE` (R7, R64, D4): "any address aligned to 256 that the platform chooses". -/
def Config.base : Nat := 256 * Config.baseIndex

/-- Cycles a command needs beyond its first one, by the number of blocks it compresses: the open part of
`LAT_BLOCK` (D16, D17, log 13). -/
opaque Config.extraLatency : Nat → Nat

/-- `LAT_BLOCK` (R7, R288): "at least 1 cycle", the same for every command that compresses that many blocks.
No rule of the machine reads it: the model has no time (R221, R288). -/
def Config.latBlock (blocks : Nat) : Nat := 1 + Config.extraLatency blocks

/-- FREE VALUE (log 4): how many further events the platform performs between the issue of a command and its
completion, one fresh value for each issue. R78 leaves the place of the completion among the host's accesses
free, and R221 says that it always comes: any sequence of natural numbers. -/
opaque Config.completionDelay : Nat → Nat

end Sys2Proof
end

