-- ==== Sys2Proof/Machine/Flags.lean ====
section
/-! DEFINITION. The STATUS fields: their values and the word a host reads (10_state.md R34). -/

namespace Sys2Proof.Machine

/-- The value of STATUS[2:1] (R34, R37). -/
def Phase.bits : Phase → BitVec 2
  | .idle => 0
  | .active => 1
  | .done => 2

/-- The value of STATUS[7:4] (R34; 60_exceptions.md R251). -/
def ErrCode.bits : ErrCode → BitVec 4
  | .none => 0x0
  | .illegal => 0x1
  | .sequence => 0x2
  | .busy => 0x3

/-- STATUS as read: `{0^24, ERRCODE[3:0], ERR, PHASE[1:0], BUSY}` (20_memory.md R66). -/
def State.statusWord (s : State) : Word :=
  (0 : BitVec 24) ++ s.ERRCODE.bits ++ BitVec.ofBool s.ERR ++ s.PHASE.bits ++ BitVec.ofBool s.BUSY

end Sys2Proof.Machine
end

