-- ==== Sys2Proof/Machine/Ops.lean ====
section
/-! DEFINITION. The named updates of the state that commands, accesses and the sequencer share. -/

namespace Sys2Proof.Machine

/-- What a command, an access or a step answers. -/
abbrev Result := Host.Outcome State Fault Refusal

/-- `raise EngineError(code)`, the only exception there is (00_scope.md R13, 60_exceptions.md R250): the first
error wins, the offending access is discarded, and no other state changes. -/
def State.raiseError (code : ErrCode) (s : State) : State :=
  { s with ERR := true, ERRCODE := if s.ERR then s.ERRCODE else code }

/-- `ERR <- 0; ERRCODE <- 0` (44_commands.md R206, 10_state.md R38, R39). -/
def State.clearError (s : State) : State :=
  { s with ERR := false, ERRCODE := .none }

/-- `DoInit` (44_commands.md R205). -/
def State.startComputation (s : State) : State :=
  { s.clearError with H := H0, LEN := 0, MSG := clearedMsg, PHASE := .active }

/-- `PEND <- p; BUSY <- 1` (44_commands.md R201, R210, R215). The number of events that will pass before the
completion is drawn here (20_memory.md R78, log 4). -/
def State.setPending (p : Pending) (s : State) : State :=
  { s with PEND := some p, BUSY := true, slack := Config.completionDelay s.ticks, ticks := s.ticks + 1 }

/-- The issue of BLOCK or FINAL when BUSY = 0: only in the ACTIVE phase (44_commands.md R201, 60_exceptions.md
R253). -/
def State.issueInActive (p : Pending) (s : State) : State :=
  if s.PHASE = .active then s.setPending p else s.raiseError .sequence

/-- The BUSY check that precedes every command (44_commands.md R201, 60_exceptions.md R254). -/
def unlessBusy (s : State) (body : State → State) : Result :=
  .next (if s.BUSY then s.raiseError .busy else body s)

/-- A host read answers `v`; "No read has a side effect" on the engine (20_memory.md R74, log 3). -/
def State.respond (v : Word) (s : State) : State :=
  { s with outbox := s.outbox ++ [v] }

/-- A host write of MSG[j] (20_memory.md R69). -/
def State.writeMsg (j : Fin 16) (v : Word) (s : State) : State :=
  if s.BUSY then s.raiseError .busy else { s with MSG := s.MSG.set j v }

/-- The first event of the inbox is taken up (log 2); one event less may come before the completion (log 4). -/
def State.takeEvent (s : State) : State :=
  { s with inbox := s.inbox.tail, slack := s.slack - 1 }

/-- Reset, also while a command is pending (70_reset_and_hazards.md R280, R281): every piece of the engine's state
takes its reset value; the surroundings keep theirs (log 8). -/
def State.platformReset (s : State) : State :=
  { State.reset with inbox := s.inbox, outbox := s.outbox, slack := s.slack, ticks := s.ticks }

end Sys2Proof.Machine
end

