-- ==== Sys2Proof/Machine/Datapath.lean ====
section
/-! DEFINITION. The compression of one block on the engine's own registers W, a..h, RND and H. The stages are
those of 44_commands.md R227; R222 folds them into one step, so no host access ever sees a state between them. -/

namespace Sys2Proof.Machine

/-- The expander fills W from the block (41_schedule.md R130, R133). -/
def State.expandBlock (B : List Byte) (s : State) : State := { s with W := expandInto s.W B }

/-- The working registers are loaded from H and the round index starts at 0 (42_compression.md R158, R157). -/
def State.loadWorking (s : State) : State := { s with work := Working.load s.H, RND := 0 }

/-- Round j runs with RND = j; RND = 64 means the 64 rounds are done (10_state.md R27; 42_compression.md R155,
R156). -/
def State.runRound (s : State) : State :=
  if h : s.RND.val < 64 then
    { s with work := compressRound K[s.RND.val] s.W[s.RND.val] s.work, RND := ⟨s.RND.val + 1, by omega⟩ }
  else s

/-- `n` rounds one after another (42_compression.md R157). -/
def State.runRounds : Nat → State → State
  | 0, s => s
  | n + 1, s => runRounds n s.runRound

/-- The working registers are added back into H (43_accumulate_digest.md R180). -/
def State.addBack (s : State) : State := { s with H := accumulate s.H s.work }

/-- One block, from the word parse to the accumulate (44_commands.md R227). -/
def State.compressInto (B : List Byte) (s : State) : State :=
  (((s.expandBlock B).loadWorking).runRounds 64).addBack

end Sys2Proof.Machine
end

