-- ==== Sys2Proof/Machine/Hashing.lean ====
section
/-! DEFINITION. BLOCK and FINAL: the issue within the write (44_commands.md R210, R215) and the completion, one
atomic step of the sequencer (R211, R216, R222). -/

namespace Sys2Proof.Machine

/-- BLOCK issue (R210). -/
def execBlock (s : State) : Result := unlessBusy s (State.issueInActive .block)

/-- FINAL issue (R215). -/
def execFinal (nb : BitVec 6) (s : State) : Result := unlessBusy s (State.issueInActive (.final nb))

/-- `CompleteBlock` (R211). -/
def completeBlock (s : State) : State :=
  { s.compressInto (msgBytes s.MSG) with
    LEN := s.LEN + 512
    PEND := none
    BUSY := false }

/-- `CompleteFinal(NB)` (R216): the padded blocks are compressed in order. -/
def completeFinal (nb : BitVec 6) (s : State) : State :=
  { (padFinal s.MSG nb (lengthField s.LEN nb)).foldl (fun t B => t.compressInto B) s with
    LEN := lengthField s.LEN nb
    MSG := clearedMsg
    PHASE := .done
    PEND := none
    BUSY := false }

/-- The engine's completion step for a pending command (R220). -/
def complete : Pending → State → State
  | .block, s => completeBlock s
  | .final nb, s => completeFinal nb s

end Sys2Proof.Machine
end

