-- ==== Sys2Proof/Machine/Housekeeping.lean ====
section
/-! DEFINITION. NOP, INIT and CLRERR: commands that take their effect within the write (44_commands.md R202, R205,
R206; 70_reset_and_hazards.md R289). -/

namespace Sys2Proof.Machine

/-- NOP: nothing (R202). -/
def execNop (s : State) : Result := unlessBusy s fun s => s

/-- INIT: `DoInit`, in every phase (R205). -/
def execInit (s : State) : Result := unlessBusy s State.startComputation

/-- CLRERR: `ERR <- 0; ERRCODE <- 0` (R206). -/
def execClrerr (s : State) : Result := unlessBusy s State.clearError

end Sys2Proof.Machine
end

