-- ==== Sys2Proof/Machine/Dispatch.lean ====
section
/-! DEFINITION. One arm per command: the host's write of its word to CMD (44_commands.md R201). -/

namespace Sys2Proof.Machine

def exec (i : Instr) (s : State) : Host.Outcome State Fault Refusal :=
  match i with
  | .nop => Sys2Proof.Machine.execNop s
  | .init => Sys2Proof.Machine.execInit s
  | .block => Sys2Proof.Machine.execBlock s
  | .final nb => Sys2Proof.Machine.execFinal nb s
  | .clrerr => Sys2Proof.Machine.execClrerr s

end Sys2Proof.Machine
end

