-- ==== Sys2Proof/Machine/Window.lean ====
section
/-! DEFINITION. The register window: the address map and what an access does (20_memory.md R63 to R73). -/

namespace Sys2Proof.Machine

/-- The window's map (R64). Offsets that are not a multiple of 4 never get here (R63). -/
def regAt (offset : BitVec 8) : Reg :=
  let o := offset.toNat
  if o = 0x00 then .cmd
  else if o = 0x04 then .status
  else if o = 0x08 then .lenLo
  else if o = 0x0C then .lenHi
  else if h : 0x40 ≤ o ∧ o < 0x80 then .msg ⟨(o - 0x40) / 4, by omega⟩
  else if h : 0x80 ≤ o ∧ o < 0xA0 then .hash ⟨(o - 0x80) / 4, by omega⟩
  else .reserved

/-- The value a host read returns (R65 to R71). -/
def State.readReg (s : State) : Reg → Word
  | .cmd => 0
  | .status => s.statusWord
  | .lenLo => s.LEN.extractLsb' 0 32
  | .lenHi => s.LEN.extractLsb' 32 32
  | .msg j => s.MSG[j]
  | .hash i => s.H[i]
  | .reserved => 0

/-- `IssueCmd(v)`: BUSY, then ILLEGAL, then the command (44_commands.md R201, 60_exceptions.md R255). -/
def issueCmd (v : Word) (s : State) : Result :=
  if s.BUSY then .next (s.raiseError .busy)
  else match decode v with
    | .error _ => .next (s.raiseError .illegal)
    | .ok i => exec i s

/-- What a host write does (R69, R71, R72, R73): every write but to CMD and MSG is ignored. -/
def writeReg (r : Reg) (v : Word) (s : State) : Result :=
  match r with
  | .cmd => issueCmd v s
  | .msg j => .next (s.writeMsg j v)
  | .status => .next s
  | .lenLo => .next s
  | .lenHi => .next s
  | .hash _ => .next s
  | .reserved => .next s

/-- One host access (R63): an access that is not admitted is refused. -/
def performAccess (a : Access) (s : State) : Result :=
  if a.admitted then
    match a with
    | .read _ offset => .next (s.respond (s.readReg (regAt offset)))
    | .write _ offset v => writeReg (regAt offset) v s
  else .refused .accessNotAdmitted

end Sys2Proof.Machine
end

