-- ==== Sys2Proof/Machine/Sequencer.lean ====
section
/-! DEFINITION. The agents and whose turn it is (44_commands.md R200, R220; 20_memory.md R78). -/

namespace Sys2Proof.Machine

/-- Which agent moves next. -/
inductive Move where
  /-- The sequencer completes the pending command (R220). -/
  | complete (p : Pending)
  /-- The first event of the inbox happens: a host access, a WAIT turn or a reset. -/
  | event (e : Event)
  /-- Nothing is pending and nothing is asked: "the engine does nothing" (R220, log 6). -/
  | idle
deriving DecidableEq, Repr

/-- The event that is due, if any. -/
def State.nextEvent (s : State) : Move :=
  match s.inbox with
  | [] => .idle
  | e :: _ => .event e

/-- A pending command completes when its free delay has run out, and at the latest when no event is left
(R78, R221, log 4, log 5). -/
def State.nextMove (s : State) : Move :=
  match s.PEND with
  | some p => if s.slack = 0 ∨ s.inbox = [] then .complete p else s.nextEvent
  | none => s.nextEvent

/-- One turn of WAIT: "loop: RD STATUS until bit 0 (BUSY) of the value read is 0" (30_encoding.md R100, log 7). -/
def waitTurn (s : State) : State :=
  if s.statusWord.getLsbD 0 then { s.respond s.statusWord with inbox := .wait :: s.inbox }
  else s.respond s.statusWord

/-- What an event does, after it has been taken from the inbox. -/
def performEvent : Event → State → Result
  | .bus a, s => performAccess a s
  | .wait, s => .next (waitTurn s)
  | .reset, s => .next s.platformReset

/-- The step of the agent whose turn it is. -/
def performMove : Move → State → Result
  | .complete p, s => .next (complete p s)
  | .event e, s => performEvent e s.takeEvent
  | .idle, s => .next s

/-- The host's write of the command word `w` to CMD, at offset 0x00 (20_memory.md R72; 30_encoding.md R99). -/
def cmdWrite (w : Word) : Event := .bus (.write 4 0x00 w)

/-- The host's next event is `e`, and it comes before any completion (log 4, log 14). -/
def State.withNextEvent (s : State) (e : Event) : State :=
  { s with inbox := e :: s.inbox, slack := s.slack + 1 }

end Sys2Proof.Machine
end

