-- ==== Sys2Proof/Machine/Step.lean ====
section
/-! DEFINITION. One step of the machine: one host access, one WAIT turn, one reset or one completion
(44_commands.md R200). -/

namespace Sys2Proof.Machine

def step (s : State) : Host.Outcome State Fault Refusal := performMove s.nextMove s

/-- The machine fetches nothing (20_memory.md R81): a command runs when the host writes it to CMD. So the word is
placed as the host's next event, before any completion (log 14). -/
def State.withFetchWord (s : State) (nbits w : Nat) : State :=
  s.withNextEvent (cmdWrite (tableWord nbits w))

end Sys2Proof.Machine
end

