-- ==== Sys2Proof/Machine/Driver.lean ====
section
/-! DEFINITION. The host's side of the interface: accesses by address (00_scope.md R12), the driver notation and its
pseudo-instructions (30_encoding.md R99, R100), and the host's sequence for a message (44_commands.md R224). -/

namespace Sys2Proof.Machine

/-- The window offset of a platform address, if the window holds it (R12, R64): `addr - BASE` (log 9). -/
def windowOffset (addr : Nat) : Option (BitVec 8) :=
  if Config.base ≤ addr ∧ addr < Config.base + 256 then some (BitVec.ofNat 8 (addr - Config.base)) else none

/-- `MemRead(addr, size)` (R12), when the address is the engine's. -/
def memRead (addr size : Nat) : Option Access := (windowOffset addr).map fun o => .read size o

/-- `MemWrite(addr, size, v)` (R12), when the address is the engine's. -/
def memWrite (addr size : Nat) (v : Word) : Option Access := (windowOffset addr).map fun o => .write size o v

/-- The line `WR <offset>, <value>` (R99). -/
def wr (offset : BitVec 8) (v : Word) : Event := .bus (.write 4 offset v)

/-- The line `RD <offset>` (R99). -/
def rd (offset : BitVec 8) : Event := .bus (.read 4 offset)

/-- The offset of MSG[j] (20_memory.md R64). -/
def msgOffset (j : Nat) : BitVec 8 := BitVec.ofNat 8 (0x40 + 4 * j)

/-- The offset of HASH[i] (20_memory.md R64). -/
def hashOffset (i : Nat) : BitVec 8 := BitVec.ofNat 8 (0x80 + 4 * i)

/-- A command mnemonic as a line: `WR CMD, <its word>` (R100). -/
def command (i : Instr) : Event := cmdWrite (encode i)

/-- `LOADBLK`, with the words of the 64 bytes of a block (R100; 20_memory.md R60). -/
def loadBlock (B : List Byte) : List Event :=
  (List.range 16).map fun j => wr (msgOffset j) (wordOf B j)

/-- `LOADPART b0..b(n-1)`: for j in 0..ceil(n/4), with 0x00 for the bytes from n on (R100). -/
def loadPart (T : List Byte) : List Event :=
  (List.range ((T.length + 3) / 4)).map fun j => wr (msgOffset j) (wordOf T j)

/-- `RDHASH` (R100). -/
def readHash : List Event := (List.range 8).map fun i => rd (hashOffset i)

/-- Write a full block into MSG, issue BLOCK and WAIT (44_commands.md R224). -/
def hashBlock (B : List Byte) : List Event := loadBlock B ++ [command .block, .wait]

/-- Write the partial block into MSG, issue FINAL n and WAIT (44_commands.md R224). `spare` are the bytes that share the
last word with it: any bytes, since the engine ignores them (40_padding.md R118); with none this is LOADPART. -/
def hashLast (T spare : List Byte) : List Event :=
  (List.range ((T.length + 3) / 4)).map (fun j => wr (msgOffset j) (wordOf (T ++ spare) j)) ++
    [command (.final (BitVec.ofNat 6 T.length)), .wait]

/-- The host's sequence of R224 for the message `m`: INIT, every full block, the partial block. -/
def hashSequence (m spare : List Byte) : List Event :=
  command .init :: ((blocksOf m).flatMap hashBlock ++ hashLast (m.drop (64 * (m.length / 64))) spare)

/-- An admitted access that is neither a command nor a write of MSG: R224 allows it anywhere in between. -/
def bystander : Event → Bool
  | .bus (.read size offset) => (Access.read size offset).admitted
  | .bus (.write size offset v) =>
    (Access.write size offset v).admitted &&
      (match regAt offset with
        | .cmd => false
        | .msg _ => false
        | .status => true
        | .lenLo => true
        | .lenHi => true
        | .hash _ => true
        | .reserved => true)
  | .wait => false
  | .reset => false

end Sys2Proof.Machine
end

