-- ==== Sys2Proof/Safety.lean ====
section
/-! DEFINITION. What the engine keeps in every run, and what counts as a safe run. -/

namespace Sys2Proof.Machine

/-- The engine's invariant. -/
structure State.Inv (s : State) : Prop where
  /-- "BUSY = 1 exactly when PEND is not none" (10_state.md R36). -/
  busy_pend : s.BUSY = s.PEND.isSome
  /-- "ERR = 0 exactly when ERRCODE = 0" (10_state.md R35). -/
  err_code : s.ERR = false ↔ s.ERRCODE = .none
  /-- A command is pending only in the ACTIVE phase (44_commands.md R201, R225). -/
  pend_active : s.PEND.isSome = true → s.PHASE = .active
  /-- Before the first INIT, H and LEN hold their reset values (10_state.md R21; 70_reset_and_hazards.md R282). -/
  idle_fresh : s.PHASE = .idle → s.H = Vector.replicate 8 0 ∧ s.LEN = 0
  /-- In the ACTIVE phase LEN counts whole blocks (10_state.md R28, R32). -/
  active_len : s.PHASE = .active → s.LEN.toNat % 512 = 0
  /-- LEN counts the bits of whole bytes (10_state.md R32). -/
  len_bytes : s.LEN.toNat % 8 = 0

/-- Every event still to come is admitted (20_memory.md R63). -/
def State.Admitted (s : State) : Prop := ∀ e ∈ s.inbox, e.admitted = true

/-- A step is safe when it answers a next state: no fault, no refusal. -/
def SafeStep (s : State) : Prop := ∃ t, step s = .next t

/-- The computation has ended: PHASE = DONE and BUSY = 0 (44_commands.md R228). The definition says nothing of ERR. -/
def State.Ended (s : State) : Prop := s.PHASE = .done ∧ s.BUSY = false

/-- `n` steps from `s` lead to `t`, with no fault and no refusal on the way. -/
def Reaches : Nat → State → State → Prop
  | 0, s, t => t = s
  | n + 1, s, t => ∃ u, step s = .next u ∧ Reaches n u t

end Sys2Proof.Machine
end

