-- ==== Sys2Proof/Certificates/Slice0/Obligations.lean ====
section
/-! DEFINITION. The statements for the provers, by rule of the spec. A claim about the schedule holds for every value
of the model's own fields `slack` and `ticks` (log 4); where a statement leaves them open it says so by an
existential. -/

open Sys2Proof Sys2Proof.Machine

/-! ### What the statements are written with -/

namespace Sys2Proof.Claims

/-- The classes of Illegal words that 30_encoding.md R96 lists, by the numbers of the fields. -/
def IllegalWord (w : Word) : Prop :=
  5 ≤ w.toNat % 16 ∨ w.toNat / 16 % 16 ≠ 0 ∨ w.toNat / 16384 ≠ 0 ∨
    (w.toNat % 16 ≠ 3 ∧ w.toNat / 256 % 64 ≠ 0)

/-- The next thing that happens is that the host issues the command `i` and the engine takes it: a CMD write of a
word of `i` while BUSY = 0. -/
def TakesCommand (s : State) (i : Instr) : Prop :=
  s.BUSY = false ∧ ∃ w, s.nextMove = .event (cmdWrite w) ∧ decode w = .ok i

/-- The next thing that happens is a platform reset. -/
def IsReset (s : State) : Prop := s.nextMove = .event .reset

/-- The next thing that happens is that the host writes `v` to MSG[j] and the engine takes it: BUSY = 0. -/
def WritesMessage (s : State) (j : Fin 16) (v : Word) : Prop :=
  s.BUSY = false ∧ s.nextMove = .event (.bus (.write 4 (BitVec.ofNat 8 (0x40 + 4 * j.val)) v))

/-- The words that 10_state.md R47 prints for H0 (log 12). -/
def printedH0 : List Word :=
  [0x6a09e667, 0xbb67ae85, 0x3c6ef372, 0xa54ff53a, 0x510e527f, 0x9b05688c, 0x1f83d9ab, 0x5be0cd19]

/-- The lines of the table that 10_state.md R45 prints for K (log 12): the index of the first column, and the words at
that index and 16, 32 and 48 above it. -/
def printedK : List (Nat × List Word) :=
  [ (0, [0x428a2f98, 0xe49b69c1, 0x27b70a85, 0x19a4c116]),
    (1, [0x71374491, 0xefbe4786, 0x2e1b2138, 0x1e376c08]),
    (2, [0xb5c0fbcf, 0x0fc19dc6, 0x4d2c6dfc, 0x2748774c]),
    (3, [0xe9b5dba5, 0x240ca1cc, 0x53380d13, 0x34b0bcb5]),
    (4, [0x3956c25b, 0x2de92c6f, 0x650a7354, 0x391c0cb3]),
    (5, [0x59f111f1, 0x4a7484aa, 0x766a0abb, 0x4ed8aa4a]),
    (6, [0x923f82a4, 0x5cb0a9dc, 0x81c2c92e, 0x5b9cca4f]),
    (7, [0xab1c5ed5, 0x76f988da, 0x92722c85, 0x682e6ff3]),
    (8, [0xd807aa98, 0x983e5152, 0xa2bfe8a1, 0x748f82ee]),
    (9, [0x12835b01, 0xa831c66d, 0xa81a664b, 0x78a5636f]),
    (10, [0x243185be, 0xb00327c8, 0xc24b8b70, 0x84c87814]),
    (11, [0x550c7dc3, 0xbf597fc7, 0xc76c51a3, 0x8cc70208]),
    (12, [0x72be5d74, 0xc6e00bf3, 0xd192e819, 0x90befffa]),
    (13, [0x80deb1fe, 0xd5a79147, 0xd6990624, 0xa4506ceb]),
    (14, [0x9bdc06a7, 0x06ca6351, 0xf40e3585, 0xbef9a3f7]),
    (15, [0xc19bf174, 0x14292967, 0x106aa070, 0xc67178f2]) ]

/-- H, LEN, MSG and PHASE are as before. -/
def SameRegisters (s t : State) : Prop :=
  t.H = s.H ∧ t.LEN = s.LEN ∧ t.MSG = s.MSG ∧ t.PHASE = s.PHASE

/-- The registers the host cannot reach are as before (60_exceptions.md R263). -/
def SameHidden (s t : State) : Prop := t.work = s.work ∧ t.W = s.W ∧ t.RND = s.RND

/-- Two states that differ at most in a..h, W and RND. -/
def EqualButHidden (s t : State) : Prop :=
  t = { s with work := t.work, W := t.W, RND := t.RND }

/-- Two answers of a step that differ at most in a..h, W and RND. -/
def AnswersEqualButHidden : Result → Result → Prop
  | .next s, .next t => EqualButHidden s t
  | .refused q, .refused r => q = r
  | _, _ => False

end Sys2Proof.Claims

open Sys2Proof.Claims

/-! ### Encoding -/

/-- 30_encoding.md R91, R95: a word decodes to a command exactly when it is that command's word. No bit of an
encoding is dropped, and no second word decodes to a command. -/
def Obligations.DecodeIsInverseOfEncode : Prop :=
  ∀ (w : Word) (i : Instr), decode w = .ok i ↔ w = encode i

/-- 30_encoding.md R95: "Exactly 68 of the 2^32 words decode to a command". -/
def Obligations.ExactlySixtyEightLegalWords : Prop :=
  ∃ ws : List Word, ws.Nodup ∧ ws.length = 68 ∧ ∀ w, (∃ i, decode w = .ok i) ↔ w ∈ ws

/-- 30_encoding.md R96, 60_exceptions.md R252: the listed words, and no others, raise ILLEGAL when BUSY = 0; when
BUSY = 1 the BUSY check comes first; no other state changes. -/
def Obligations.IllegalWordRaisesIllegal : Prop :=
  ∀ (w : Word) (s : State),
    (IllegalWord w →
      performAccess (.write 4 0x00 w) s =
        .next { s with
          ERR := true
          ERRCODE := if s.ERR then s.ERRCODE else if s.BUSY then .busy else .illegal }) ∧
    ((∃ e, decode w = .error e) ↔ IllegalWord w)

/-- Words written out from the encodings of 30_encoding.md R91 and from 95_test_vectors.md V13. -/
def Obligations.WrittenOutWordsDecode : Prop :=
  decode 0b00000000000000000000000000000000 = .ok .nop ∧
  decode 0b00000000000000000000000000000001 = .ok .init ∧
  decode 0b00000000000000000000000000000010 = .ok .block ∧
  decode 0b00000000000000000011111100000011 = .ok (.final 63) ∧
  decode 0b00000000000000000000001100000011 = .ok (.final 3) ∧
  decode 0b00000000000000000000000000000100 = .ok .clrerr

/-! ### The step -/

/-- 20_memory.md R72, R78; 44_commands.md R201: when the host's next access is the write to CMD of a word that
decodes to `i`, the step is `exec i` on the state from which that access has been taken. The machine fetches nothing
(R81): `withFetchWord` places that write, and then the step is `exec i` on the state itself. -/
def Obligations.StepRunsTheWrittenCommand : Prop :=
  ∀ (w : Word) (i : Instr) (s : State), decode w = .ok i →
    (s.nextMove = .event (cmdWrite w) → step s = exec i s.takeEvent) ∧
    step (s.withFetchWord 32 w.toNat) = exec i s

/-- 20_memory.md R78, 44_commands.md R220; the form of the free choice is the model's (log 4, log 5, log 6): a pending
command completes when its delay has run out or no event is left, an event is performed in the inbox's order, and
with nothing pending and nothing asked the step changes nothing. An event that is a host access is performed as
`performAccess` says, so the statements about accesses speak of steps. -/
def Obligations.StepFollowsTheSchedule : Prop :=
  (∀ (a : Access) (s : State), performEvent (.bus a) s = performAccess a s) ∧
  ∀ s : State,
    (∀ p, s.PEND = some p → (s.slack = 0 ∨ s.inbox = []) → step s = .next (complete p s)) ∧
    (∀ p e es, s.PEND = some p → s.inbox = e :: es → 0 < s.slack →
      step s = performEvent e { s with inbox := es, slack := s.slack - 1 }) ∧
    (∀ e es, s.PEND = none → s.inbox = e :: es →
      step s = performEvent e { s with inbox := es, slack := s.slack - 1 }) ∧
    (s.PEND = none → s.inbox = [] → step s = .next s)

/-- 20_memory.md R63, 60_exceptions.md R258: no step ends in a fault (log 19), and a step is refused exactly when the access
that is due is not 32 bits wide or not at a multiple of 4. -/
def Obligations.OnlyNonAdmittedAccessesAreRefused : Prop :=
  ∀ s : State,
    (∀ f, step s ≠ .fault f) ∧
    ((∃ r, step s = .refused r) ↔
      ∃ a, s.nextMove = .event (.bus a) ∧
        match a with
        | .read size offset => size ≠ 4 ∨ offset.toNat % 4 ≠ 0
        | .write size offset _ => size ≠ 4 ∨ offset.toNat % 4 ≠ 0)

/-! ### Errors -/

/-- 60_exceptions.md R250, 10_state.md R39: the first error is recorded, a later one changes nothing, and no other
state changes. -/
def Obligations.FirstErrorIsRecorded : Prop :=
  ∀ (code : ErrCode) (s : State),
    (s.ERR = false → s.raiseError code = { s with ERR := true, ERRCODE := code }) ∧
    (s.ERR = true → s.raiseError code = s)

/-- 10_state.md R38, R39: a recorded error stays until an INIT or a CLRERR is taken or the platform resets. -/
def Obligations.RecordedErrorIsSticky : Prop :=
  ∀ s t : State, step s = .next t → s.ERR = true →
    ¬ TakesCommand s .init → ¬ TakesCommand s .clrerr → ¬ IsReset s →
    t.ERR = true ∧ t.ERRCODE = s.ERRCODE

/-- 60_exceptions.md R254: while BUSY = 1 every CMD write and every MSG write is discarded with error BUSY; reads are
permitted and raise nothing; other writes are ignored. -/
def Obligations.BusyRefusesCommandAndMessageWrites : Prop :=
  ∀ s : State, s.BUSY = true →
    (∀ w, performAccess (.write 4 0x00 w) s = .next (s.raiseError .busy)) ∧
    (∀ i, exec i s = .next (s.raiseError .busy)) ∧
    (∀ (j : Fin 16) w,
      performAccess (.write 4 (BitVec.ofNat 8 (0x40 + 4 * j.val)) w) s = .next (s.raiseError .busy)) ∧
    (∀ o : BitVec 8, o.toNat % 4 = 0 → ∃ v, performAccess (.read 4 o) s = .next { s with outbox := s.outbox ++ [v] }) ∧
    (∀ (o : BitVec 8) w, o.toNat % 4 = 0 → o.toNat ≠ 0 → (o.toNat < 0x40 ∨ 0x80 ≤ o.toNat) →
      performAccess (.write 4 o w) s = .next s)

/-- 60_exceptions.md R255, 44_commands.md R201: with no error recorded, a CMD write records the first cause that
applies, in the order BUSY, ILLEGAL, SEQUENCE, and nothing if none does. -/
def Obligations.ErrorCausesHavePriority : Prop :=
  ∀ (w : Word) (s : State), s.ERR = false → s.ERRCODE = .none →
    ∃ t, performAccess (.write 4 0x00 w) s = .next t ∧
      t.ERRCODE =
        (if s.BUSY then .busy
        else match decode w with
          | .error _ => .illegal
          | .ok .block => if s.PHASE = .active then .none else .sequence
          | .ok (.final _) => if s.PHASE = .active then .none else .sequence
          | .ok _ => .none) ∧
      (t.ERR = true ↔ t.ERRCODE ≠ .none)

/-- 60_exceptions.md R253: a legal BLOCK or FINAL word written in IDLE or DONE with BUSY = 0 raises SEQUENCE and is
discarded: everything else, H among it, is kept. -/
def Obligations.SequenceErrorDiscardsTheCommand : Prop :=
  ∀ (i : Instr) (s : State), s.BUSY = false → s.PHASE ≠ .active → (i = .block ∨ ∃ nb, i = .final nb) →
    performAccess (.write 4 0x00 (encode i)) s =
      .next { s with ERR := true, ERRCODE := if s.ERR then s.ERRCODE else .sequence }

/-! ### Commands: where each completes, and what it does -/

/-- 44_commands.md R202. -/
def Obligations.NopCompletes : Prop :=
  (encode .nop).toNat = 0x00000000 ∧
  ∀ s : State,
    (s.BUSY = false → exec .nop s = .next s) ∧
    (s.BUSY = true → exec .nop s = .next (s.raiseError .busy))

/-- 44_commands.md R205. -/
def Obligations.InitCompletes : Prop :=
  (encode .init).toNat = 0x00000001 ∧
  ∀ s : State,
    (s.BUSY = false →
      exec .init s = .next { s with
        H := H0
        LEN := 0
        MSG := Vector.replicate 16 0
        PHASE := .active
        ERR := false
        ERRCODE := .none }) ∧
    (s.BUSY = true → exec .init s = .next (s.raiseError .busy)) ∧
    (∀ t, s.BUSY = false → exec .init s = .next t → exec .init t = .next t ∧ t.statusWord = 0x00000002)

/-- 44_commands.md R206. -/
def Obligations.ClrerrCompletes : Prop :=
  (encode .clrerr).toNat = 0x00000004 ∧
  ∀ s : State,
    (s.BUSY = false → exec .clrerr s = .next { s with ERR := false, ERRCODE := .none }) ∧
    (s.BUSY = true → exec .clrerr s = .next (s.raiseError .busy)) ∧
    (s.BUSY = false → s.ERR = false → s.ERRCODE = .none → exec .clrerr s = .next s)

/-- 44_commands.md R210. The model's own slack and ticks are left open (log 4). -/
def Obligations.BlockIssueCompletes : Prop :=
  (encode .block).toNat = 0x00000002 ∧
  ∀ s : State,
    (s.BUSY = false → s.PHASE = .active →
      ∃ k n, exec .block s = .next { s with PEND := some .block, BUSY := true, slack := k, ticks := n }) ∧
    (s.BUSY = true → exec .block s = .next (s.raiseError .busy)) ∧
    (s.BUSY = false → s.PHASE ≠ .active → exec .block s = .next (s.raiseError .sequence))

/-- 44_commands.md R215, for every count. The model's own slack and ticks are left open (log 4). -/
def Obligations.FinalIssueCompletes : Prop :=
  ∀ nb : BitVec 6, (encode (.final nb)).toNat = 0x00000003 + 256 * nb.toNat ∧
  ∀ s : State,
    (s.BUSY = false → s.PHASE = .active →
      ∃ k n, exec (.final nb) s = .next { s with PEND := some (.final nb), BUSY := true, slack := k, ticks := n }) ∧
    (s.BUSY = true → exec (.final nb) s = .next (s.raiseError .busy)) ∧
    (s.BUSY = false → s.PHASE ≠ .active → exec (.final nb) s = .next (s.raiseError .sequence))

/-- 44_commands.md R211: the completion of BLOCK. "MSG is unchanged and PHASE stays ACTIVE. W[j] = MSG[j] for j < 16." -/
def Obligations.BlockCompletionCompresses : Prop :=
  ∀ s : State, s.nextMove = .complete .block →
    ∃ t, step s = .next t ∧
      t.H = compressBlock s.H
        ((List.finRange 64).map fun k => (s.MSG[k.val / 4]).extractLsb' (24 - 8 * (k.val % 4)) 8) ∧
      t.LEN = s.LEN + 512 ∧ t.PEND = none ∧ t.BUSY = false ∧
      t.MSG = s.MSG ∧ t.PHASE = s.PHASE ∧ t.ERR = s.ERR ∧ t.ERRCODE = s.ERRCODE ∧
      t.inbox = s.inbox ∧ t.outbox = s.outbox ∧ t.slack = s.slack ∧ t.ticks = s.ticks ∧
      ∀ j : Fin 16, t.W[j.val] = s.MSG[j]

/-- 44_commands.md R216: the completion of FINAL NB. -/
def Obligations.FinalCompletionPadsAndCompresses : Prop :=
  ∀ (s : State) (nb : BitVec 6), s.nextMove = .complete (.final nb) →
    ∃ t, step s = .next t ∧
      t.LEN.toNat = (s.LEN.toNat + 8 * nb.toNat) % 2 ^ 64 ∧
      t.H = (padFinal s.MSG nb t.LEN).foldl compressBlock s.H ∧
      t.MSG = Vector.replicate 16 0 ∧ t.PHASE = .done ∧ t.PEND = none ∧ t.BUSY = false ∧
      t.ERR = s.ERR ∧ t.ERRCODE = s.ERRCODE ∧
      t.inbox = s.inbox ∧ t.outbox = s.outbox ∧ t.slack = s.slack ∧ t.ticks = s.ticks

/-- 44_commands.md R210, R211: BLOCK from its issue to its completion, when the host asks nothing in between. -/
def Obligations.BlockRunsFromIssueToCompletion : Prop :=
  ∀ s : State, s.BUSY = false → s.PHASE = .active → s.inbox = [] →
    ∃ u t, exec .block s = .next u ∧ step u = .next t ∧
      u.BUSY = true ∧ SameRegisters s u ∧
      t.H = compressBlock s.H (msgBytes s.MSG) ∧ t.LEN = s.LEN + 512 ∧ t.MSG = s.MSG ∧ t.PHASE = .active ∧
      t.BUSY = false ∧ t.PEND = none ∧ t.ERR = s.ERR ∧ t.ERRCODE = s.ERRCODE

/-- 44_commands.md R215, R216: FINAL from its issue to its completion, when the host asks nothing in between: one
block for a count up to 55, two from 56 on. -/
def Obligations.FinalRunsFromIssueToCompletion : Prop :=
  ∀ (s : State) (nb : BitVec 6), s.BUSY = false → s.PHASE = .active → s.inbox = [] →
    ∃ u t, exec (.final nb) s = .next u ∧ step u = .next t ∧
      u.BUSY = true ∧ SameRegisters s u ∧
      (nb.toNat ≤ 55 → ∃ B, padFinal s.MSG nb t.LEN = [B] ∧ t.H = compressBlock s.H B) ∧
      (56 ≤ nb.toNat → ∃ B C, padFinal s.MSG nb t.LEN = [B, C] ∧ t.H = compressBlock (compressBlock s.H B) C) ∧
      t.LEN = s.LEN + 8 * nb.setWidth 64 ∧ t.MSG = clearedMsg ∧ t.PHASE = .done ∧
      t.BUSY = false ∧ t.PEND = none ∧ t.ERR = s.ERR ∧ t.ERRCODE = s.ERRCODE

/-- What every command leaves unchanged at its issue (44_commands.md R201, R202, R205, R206, R210, R215): a..h, W, RND
and the surroundings always; H, LEN, MSG and PHASE but for INIT; PEND and BUSY but for BLOCK and FINAL; ERR and ERRCODE
only move as an error, INIT or CLRERR moves them. -/
def Obligations.CommandIssueFrame : Prop :=
  ∀ (i : Instr) (s t : State), exec i s = .next t →
    SameHidden s t ∧ t.inbox = s.inbox ∧ t.outbox = s.outbox ∧
    (i ≠ .init → SameRegisters s t) ∧
    (i ≠ .block → (∀ nb, i ≠ .final nb) →
      t.PEND = s.PEND ∧ t.BUSY = s.BUSY ∧ t.slack = s.slack ∧ t.ticks = s.ticks) ∧
    (i ≠ .init → i ≠ .clrerr → s.ERR = true → t.ERR = true ∧ t.ERRCODE = s.ERRCODE)

/-! ### The register window -/

/-- 20_memory.md R65, R66, R67, R68: what a read of CMD, STATUS, LEN_LO and LEN_HI returns; nothing else changes but
the model's record of what the host read (log 3). -/
def Obligations.ControlRegistersRead : Prop :=
  ∀ s : State,
    performAccess (.read 4 0x00) s = .next { s with outbox := s.outbox ++ [0] } ∧
    performAccess (.read 4 0x04) s = .next { s with
      outbox := s.outbox ++
        [(0 : BitVec 24) ++ s.ERRCODE.bits ++ BitVec.ofBool s.ERR ++ s.PHASE.bits ++ BitVec.ofBool s.BUSY] } ∧
    performAccess (.read 4 0x08) s = .next { s with
      outbox := s.outbox ++ [BitVec.ofNat 32 (s.LEN.toNat % 2 ^ 32)] } ∧
    performAccess (.read 4 0x0C) s = .next { s with
      outbox := s.outbox ++ [BitVec.ofNat 32 (s.LEN.toNat / 2 ^ 32)] }

/-- 10_state.md R34: STATUS as a number, field by field. -/
def Obligations.StatusWordLayout : Prop :=
  ∀ s : State, s.statusWord.toNat =
    (if s.BUSY then 1 else 0) +
    2 * (match s.PHASE with | .idle => 0 | .active => 1 | .done => 2) +
    8 * (if s.ERR then 1 else 0) +
    16 * (match s.ERRCODE with | .none => 0 | .illegal => 1 | .sequence => 2 | .busy => 3)

/-- 20_memory.md R69: a read of MSG[j] returns it; a write replaces it when BUSY = 0 and raises BUSY otherwise. -/
def Obligations.MessageRegistersReadAndWrite : Prop :=
  ∀ (s : State) (j : Fin 16) (v : Word),
    performAccess (.read 4 (BitVec.ofNat 8 (0x40 + 4 * j.val))) s =
      .next { s with outbox := s.outbox ++ [s.MSG[j]] } ∧
    (s.BUSY = true →
      performAccess (.write 4 (BitVec.ofNat 8 (0x40 + 4 * j.val)) v) s = .next (s.raiseError .busy)) ∧
    (s.BUSY = false →
      ∃ t, performAccess (.write 4 (BitVec.ofNat 8 (0x40 + 4 * j.val)) v) s = .next t ∧
        t = { s with MSG := t.MSG } ∧ t.MSG[j] = v ∧ ∀ k : Fin 16, k ≠ j → t.MSG[k] = s.MSG[k])

/-- 20_memory.md R70: a read of HASH[i] returns H[i]: 0 after reset, H0[i] after INIT. The words of H0 are those that
10_state.md R47 prints, which the spec takes from general knowledge (log 12). -/
def Obligations.HashRegistersRead : Prop :=
  ∀ (s : State) (i : Fin 8),
    performAccess (.read 4 (BitVec.ofNat 8 (0x80 + 4 * i.val))) s =
      .next { s with outbox := s.outbox ++ [s.H[i]] } ∧
    State.reset.H[i] = 0 ∧
    (s.BUSY = false → ∃ t, exec .init s = .next t ∧ t.H[i] = H0[i] ∧ printedH0[i.val]? = some t.H[i])

/-- 20_memory.md R71: a reserved offset reads 0, a write there is ignored, and neither has another effect. -/
def Obligations.ReservedOffsetsReadZeroAndIgnoreWrites : Prop :=
  ∀ (s : State) (o : BitVec 8) (v : Word), o.toNat % 4 = 0 →
    (0x10 ≤ o.toNat ∧ o.toNat ≤ 0x3C ∨ 0xA0 ≤ o.toNat) →
    performAccess (.read 4 o) s = .next { s with outbox := s.outbox ++ [0] } ∧
    performAccess (.write 4 o v) s = .next s

/-- 20_memory.md R73: writes to STATUS, LEN_LO, LEN_HI and HASH[i] are ignored. -/
def Obligations.ReadOnlyRegistersIgnoreWrites : Prop :=
  ∀ (s : State) (v : Word),
    performAccess (.write 4 0x04 v) s = .next s ∧
    performAccess (.write 4 0x08 v) s = .next s ∧
    performAccess (.write 4 0x0C v) s = .next s ∧
    ∀ i : Fin 8, performAccess (.write 4 (BitVec.ofNat 8 (0x80 + 4 * i.val)) v) s = .next s

/-- 20_memory.md R74: no read has a side effect, and reading a register twice with nothing in between returns the same
value twice. -/
def Obligations.ReadsHaveNoSideEffect : Prop :=
  ∀ (s : State) (o : BitVec 8), o.toNat % 4 = 0 →
    ∃ v, performAccess (.read 4 o) s = .next { s with outbox := s.outbox ++ [v] } ∧
      ∀ t, performAccess (.read 4 o) s = .next t →
        performAccess (.read 4 o) t = .next { s with outbox := s.outbox ++ [v, v] }

/-- 00_scope.md R12, 20_memory.md R64: an access at BASE + offset is the access at that offset, BASE is a multiple of
256, and an address outside the 256 bytes of the window is not the engine's. -/
def Obligations.AddressesAreRelativeToBase : Prop :=
  Config.base % 256 = 0 ∧
  (∀ (o : BitVec 8) (n : Nat) (v : Word),
    memRead (Config.base + o.toNat) n = some (.read n o) ∧
    memWrite (Config.base + o.toNat) n v = some (.write n o v)) ∧
  ∀ addr n v, (addr < Config.base ∨ Config.base + 256 ≤ addr) → memRead addr n = none ∧ memWrite addr n v = none

/-! ### Who writes what -/

/-- 10_state.md R20: H changes only at INIT and at the completion of BLOCK or FINAL, and at reset. -/
def Obligations.HashStateWriters : Prop :=
  ∀ s t : State, step s = .next t → t.H ≠ s.H →
    TakesCommand s .init ∨ (∃ p, s.nextMove = .complete p) ∨ IsReset s

/-- 10_state.md R30: of the engine's operations only INIT and the completion of FINAL write MSG, and they set all of it to
0; beside them stand the host's MSG writes (20_memory.md R69) and the reset (70_reset_and_hazards.md R280). -/
def Obligations.MessageBufferWriters : Prop :=
  ∀ s t : State, step s = .next t →
    (∃ j v, WritesMessage s j v ∧ t.MSG = s.MSG.set j v) ∨
    ((TakesCommand s .init ∨ (∃ nb, s.nextMove = .complete (.final nb)) ∨ IsReset s) ∧
      t.MSG = Vector.replicate 16 0) ∨
    (t.MSG = s.MSG ∧ (∀ j v, ¬ WritesMessage s j v) ∧ ¬ TakesCommand s .init ∧
      (∀ nb, s.nextMove ≠ .complete (.final nb)) ∧ ¬ IsReset s)

/-- 10_state.md R32: LEN changes at three points, as the rule says, and at reset. -/
def Obligations.LengthCounterWriters : Prop :=
  ∀ s t : State, step s = .next t →
    (TakesCommand s .init ∧ t.LEN = 0) ∨
    (s.nextMove = .complete .block ∧ t.LEN.toNat = (s.LEN.toNat + 512) % 2 ^ 64) ∨
    (∃ nb, s.nextMove = .complete (.final nb) ∧ t.LEN.toNat = (s.LEN.toNat + 8 * nb.toNat) % 2 ^ 64) ∨
    (IsReset s ∧ t.LEN = 0) ∨
    t.LEN = s.LEN

/-- 10_state.md R37: INIT sets PHASE to ACTIVE, the completion of FINAL sets it to DONE, reset sets IDLE, and nothing
else writes it. -/
def Obligations.PhaseWriters : Prop :=
  ∀ s t : State, step s = .next t →
    (TakesCommand s .init ∧ t.PHASE = .active) ∨
    (∃ nb, s.nextMove = .complete (.final nb) ∧ t.PHASE = .done) ∨
    (IsReset s ∧ t.PHASE = .idle) ∨
    (t.PHASE = s.PHASE ∧ ¬ TakesCommand s .init ∧ (∀ nb, s.nextMove ≠ .complete (.final nb)) ∧ ¬ IsReset s)

/-- 20_memory.md R72, 10_state.md R42: the only step that fills the command slot is a legal BLOCK or FINAL taken in
the ACTIVE phase with BUSY = 0. -/
def Obligations.OnlyCommandsStartActivity : Prop :=
  ∀ s t : State, step s = .next t → s.PEND = none → t.PEND ≠ none →
    s.PHASE = .active ∧ t.BUSY = true ∧
      ((TakesCommand s .block ∧ t.PEND = some .block) ∨
        ∃ nb, TakesCommand s (.final nb) ∧ t.PEND = some (.final nb))

/-- 10_state.md R21, R31; 44_commands.md R222, R226: while BUSY = 1 no host access changes H, LEN, MSG, PHASE, BUSY or the
pending command. -/
def Obligations.PendingCommandIsUndisturbed : Prop :=
  ∀ s t : State, s.BUSY = true → (∃ e, s.nextMove = .event e ∧ e ≠ .reset) → step s = .next t →
    SameRegisters s t ∧ t.BUSY = true ∧ t.PEND = s.PEND ∧ SameHidden s t

/-- 43_accumulate_digest.md R183: once the digest is valid it stays until the next INIT or reset. The premise Inv rules
out a pending command outside the ACTIVE phase. -/
def Obligations.DigestStaysUntilInitOrReset : Prop :=
  ∀ s t : State, s.Inv → s.Ended → step s = .next t → ¬ TakesCommand s .init → ¬ IsReset s →
    t.H = s.H ∧ t.LEN = s.LEN ∧ t.Ended

/-- 10_state.md R24, R26; 60_exceptions.md R263; 93_implementation_defined.md U9: what a..h, W and RND hold never reaches
anything else: two states that differ only there answer alike. -/
def Obligations.HiddenRegistersAreNeverObserved : Prop :=
  ∀ s t : State, EqualButHidden s t → AnswersEqualButHidden (step s) (step t)

/-! ### Reset and invariants -/

/-- 70_reset_and_hazards.md R280. -/
def Obligations.ResetValues : Prop :=
  (∀ i : Fin 8, State.reset.H[i] = 0) ∧ (∀ j : Fin 16, State.reset.MSG[j] = 0) ∧ State.reset.LEN = 0 ∧
  State.reset.BUSY = false ∧ State.reset.PHASE = .idle ∧ State.reset.ERR = false ∧ State.reset.ERRCODE = .none ∧
  State.reset.statusWord = 0 ∧ State.reset.PEND = none ∧
  State.reset.work = ⟨0, 0, 0, 0, 0, 0, 0, 0⟩ ∧ (∀ j : Fin 64, State.reset.W[j] = 0) ∧ State.reset.RND = 0

/-- 70_reset_and_hazards.md R281: a reset, also while a command is pending, gives exactly the state of R280; only the
model's record of the surroundings is kept (log 8). -/
def Obligations.ResetAbandonsThePendingCommand : Prop :=
  ∀ s : State, IsReset s →
    ∃ t, step s = .next t ∧
      t = { State.reset with inbox := s.inbox.tail, outbox := s.outbox, slack := t.slack, ticks := s.ticks }

/-- The invariant of Safety.lean holds at reset (10_state.md R35, R36). -/
def Obligations.InvariantHoldsAtReset : Prop := State.reset.Inv

/-- 10_state.md R35, R36 and the rest of the invariant: every step from every state that meets it keeps it. -/
def Obligations.EveryStepKeepsTheInvariant : Prop :=
  ∀ s t : State, s.Inv → step s = .next t → t.Inv

/-! ### Progress and schedules -/

/-- 44_commands.md R221: a pending command is gone after at most slack + 1 steps, if no event still to come is refused;
and unless one of these events is a reset, which would abandon it (70_reset_and_hazards.md R281), it has then completed,
with the effect its completion would have had at once. The bound is the model's (log 4). -/
def Obligations.PendingCommandCompletes : Prop :=
  ∀ (s : State) (p : Pending), s.Inv → s.Admitted → s.PEND = some p →
    ∃ n t, n ≤ s.slack + 1 ∧ Reaches n s t ∧ t.PEND = none ∧ t.BUSY = false ∧
      (.reset ∉ s.inbox → SameRegisters (complete p s) t ∧ SameHidden (complete p s) t)

/-- 30_encoding.md R100, 44_commands.md R221: every WAIT ends, and at its end BUSY = 0 and the last value read has bit 0
clear. -/
def Obligations.WaitEnds : Prop :=
  ∀ (s : State) (es : List Event), s.Inv → s.inbox = .wait :: es →
    ∃ n t vs v, Reaches n s t ∧ t.inbox = es ∧ t.BUSY = false ∧ t.PEND = none ∧
      t.outbox = s.outbox ++ vs ++ [v] ∧ v.getLsbD 0 = false ∧ ∀ u ∈ vs, u.getLsbD 0 = true

/-- 20_memory.md R78, 44_commands.md R222 and the two schedules of 95_test_vectors.md P4: whenever the completion falls
among the host's reads, WAITs and writes other than commands, it gives the same H, LEN and PHASE. -/
def Obligations.ResultDoesNotDependOnTheSchedule : Prop :=
  ∀ (s : State) (p : Pending) (es : List Event) (k : Nat), s.Inv → s.PEND = some p →
    (∀ e ∈ es, e.admitted = true ∧ e ≠ .reset ∧ ∀ w, e ≠ cmdWrite w) →
    ∃ n t, Reaches n { s with inbox := es, slack := k } t ∧ t.inbox = [] ∧ t.PEND = none ∧
      t.H = (complete p s).H ∧ t.LEN = (complete p s).LEN ∧ t.PHASE = (complete p s).PHASE

/-- 70_reset_and_hazards.md R285: eight HASH reads in a row are one consistent value when nothing is pending, or when the
completion does not fall among them; the reads answer H[0] to H[7] in order. -/
def Obligations.DigestReadSeriesIsConsistent : Prop :=
  ∀ (s : State) (es : List Event), s.inbox = readHash ++ es → (s.PEND = none ∨ 8 ≤ s.slack) →
    ∃ t, Reaches 8 s t ∧ t.inbox = es ∧ t.outbox = s.outbox ++ s.H.toList ∧ t.H = s.H ∧ t.PEND = s.PEND

/-! ### The units -/

/-- 00_scope.md R10: shr divides by 2^n, and bit i of rotr(x, n) is bit (i+n) mod 32 of x. -/
def Obligations.ShiftAndRotateBits : Prop :=
  ∀ (x : Word) (n : Nat), 0 < n → n < 32 →
    (shr x n).toNat = x.toNat / 2 ^ n ∧
    ∀ i, i < 32 → (rotr x n).getLsbD i = x.getLsbD ((i + n) % 32)

/-- 41_schedule.md R131, R132; 42_compression.md R150, R152: the worked values, and linearity over XOR, which the rules
say of the first three and which follows from the formula of R152 for the fourth. -/
def Obligations.SigmasAreLinear : Prop :=
  (smallSigma0 1 = 0x02004000 ∧ smallSigma1 1 = 0x0000A000 ∧ bigSigma1 1 = 0x04200080 ∧ bigSigma0 1 = 0x40080400) ∧
  ∀ x y : Word,
    smallSigma0 (x ^^^ y) = smallSigma0 x ^^^ smallSigma0 y ∧
    smallSigma1 (x ^^^ y) = smallSigma1 x ^^^ smallSigma1 y ∧
    bigSigma1 (x ^^^ y) = bigSigma1 x ^^^ bigSigma1 y ∧
    bigSigma0 (x ^^^ y) = bigSigma0 x ^^^ bigSigma0 y

/-- 42_compression.md R151, R153: Ch takes f where e is 1 and g where e is 0; Maj is the value at least two of a, b and c
hold. -/
def Obligations.ChooseAndMajorityBitByBit : Prop :=
  ∀ (x y z : Word) (i : Nat), i < 32 →
    (choose x y z).getLsbD i = (if x.getLsbD i then y.getLsbD i else z.getLsbD i) ∧
    ((majority x y z).getLsbD i = true ↔
      2 ≤ (x.getLsbD i).toNat + (y.getLsbD i).toNat + (z.getLsbD i).toNat)

/-- 42_compression.md R156: one round writes all eight registers at once from their values at its start. -/
def Obligations.RoundWritesAllRegisters : Prop :=
  ∀ (k w a b c d e f g h : Word),
    let t1 := (((h + bigSigma1 e) + choose e f g) + k) + w
    let t2 := bigSigma0 a + majority a b c
    compressRound k w ⟨a, b, c, d, e, f, g, h⟩ = ⟨t1 + t2, a, b, c, d + t1, e, f, g⟩

/-- 10_state.md R27, 42_compression.md R155, R157: on the engine's registers, round j runs with RND = j, reads K[j] and
W[j] and leaves RND = j + 1, for j = 0 to 63; then RND = 64, no further round runs, and a..h are CompressRounds(H, W). The words of K
are those that 10_state.md R45 prints, which the spec takes from general knowledge (log 12). -/
def Obligations.RoundLoopRunsSixtyFourRounds : Prop :=
  (printedK.map Prod.fst = List.range 16 ∧
    ∀ line ∈ printedK, ∀ column : Fin 4,
      ∃ w, line.2[column.val]? = some w ∧ K[line.1 + 16 * column.val]? = some w) ∧
  ∀ s : State,
    (∀ j : Fin 64,
      let r := s.loadWorking.runRounds j.val
      let r' := s.loadWorking.runRounds (j.val + 1)
      r.RND.val = j.val ∧ r'.RND.val = j.val + 1 ∧ r'.work = compressRound K[j] s.W[j] r.work ∧
        r'.H = s.H ∧ r'.W = s.W) ∧
    ∀ n, 64 ≤ n →
      (s.loadWorking.runRounds n).RND = 64 ∧ (s.loadWorking.runRounds n).work = compressRounds s.H s.W

/-- 41_schedule.md R130, R133: for the block MSG holds the parse is the identity, and every later word follows the
recurrence. -/
def Obligations.ScheduleFollowsTheRecurrence : Prop :=
  ∀ (MSG : Vector Word 16) (B : List Byte),
    (∀ j : Fin 16, (expand (msgBytes MSG))[j.val] = MSG[j]) ∧
    (∀ j : Fin 16, (expand B)[j.val] = wordOf B j.val) ∧
    ∀ i : Fin 48, (expand B)[i.val + 16] =
      ((smallSigma1 (expand B)[i.val + 14] + (expand B)[i.val + 9]) + smallSigma0 (expand B)[i.val + 1]) +
        (expand B)[i.val]

/-- 43_accumulate_digest.md R180: each word is added on its own mod 2^32. -/
def Obligations.AccumulateAddsWordByWord : Prop :=
  ∀ (H : Vector Word 8) (r : Working) (i : Fin 8),
    (accumulate H r)[i].toNat =
      (H[i].toNat + ([r.a, r.b, r.c, r.d, r.e, r.f, r.g, r.h][i.val]).toNat) % 2 ^ 32

/-- 43_accumulate_digest.md R182, 20_memory.md R61: the digest has 32 bytes, and byte 4i + k is H[i][31-8k : 24-8k]. -/
def Obligations.DigestBytesAreBigEndian : Prop :=
  ∀ H : Vector Word 8, (digest H).length = 32 ∧
    ∀ (i : Fin 8) (k : Fin 4),
      ((digest H).getD (4 * i.val + k.val) 0).toNat = H[i].toNat / 2 ^ (24 - 8 * k.val) % 256

/-- 40_padding.md R110, R111: z is the least number of zero bytes that brings the length to 56 mod 64, and pad(m) is
floor((L + 8) / 64) + 1 whole blocks. -/
def Obligations.PaddingIsMinimalAndAligned : Prop :=
  ∀ m : List Byte,
    (m.length + 1 + padZeros m.length) % 64 = 56 ∧
    (∀ z, (m.length + 1 + z) % 64 = 56 → padZeros m.length ≤ z) ∧
    (pad m).length = m.length + 9 + padZeros m.length ∧
    (pad m).length = 64 * ((m.length + 8) / 64 + 1)

/-- 40_padding.md R115: the one block for NB <= 55, byte by byte. -/
def Obligations.OneBlockPadding : Prop :=
  ∀ (MSG : Vector Word 16) (nb : BitVec 6) (lenf : Len), nb.toNat ≤ 55 →
    ∃ B, padFinal MSG nb lenf = [B] ∧ B.length = 64 ∧
      (∀ k : Fin 64, k.val < nb.toNat → B.getD k.val 0 = wordByte MSG[k.val / 4] (k.val % 4)) ∧
      B.getD nb.toNat 0 = 0x80 ∧
      (∀ k, nb.toNat < k → k < 56 → B.getD k 0 = 0) ∧
      (∀ k, k < 8 → (B.getD (56 + k) 0).toNat = lenf.toNat / 2 ^ (56 - 8 * k) % 256)

/-- 40_padding.md R117: the two blocks for NB >= 56, byte by byte. -/
def Obligations.TwoBlockPadding : Prop :=
  ∀ (MSG : Vector Word 16) (nb : BitVec 6) (lenf : Len), 56 ≤ nb.toNat →
    ∃ B C, padFinal MSG nb lenf = [B, C] ∧ B.length = 64 ∧ C.length = 64 ∧
      (∀ k : Fin 64, k.val < nb.toNat → B.getD k.val 0 = wordByte MSG[k.val / 4] (k.val % 4)) ∧
      B.getD nb.toNat 0 = 0x80 ∧
      (∀ k, nb.toNat < k → k < 64 → B.getD k 0 = 0) ∧
      (∀ k, k < 56 → C.getD k 0 = 0) ∧
      (∀ k, k < 8 → (C.getD (56 + k) 0).toNat = lenf.toNat / 2 ^ (56 - 8 * k) % 256)

/-- 40_padding.md R118: the bytes of MSG from index NB on play no part. -/
def Obligations.PaddingIgnoresBytesFromTheCountOn : Prop :=
  ∀ (M N : Vector Word 16) (nb : BitVec 6) (lenf : Len),
    (∀ k : Fin 64, k.val < nb.toNat → wordByte M[k.val / 4] (k.val % 4) = wordByte N[k.val / 4] (k.val % 4)) →
    padFinal M nb lenf = padFinal N nb lenf

/-- 40_padding.md R119: full blocks followed by the padded partial block are the source's pad(M). -/
def Obligations.StreamingPaddingIsSourcePadding : Prop :=
  ∀ (Ms : List (List Byte)) (MSG : Vector Word 16) (nb : BitVec 6), (∀ B ∈ Ms, B.length = 64) →
    Ms.flatten ++ (padFinal MSG nb (lengthField (BitVec.ofNat 64 (512 * Ms.length)) nb)).flatten =
      pad (Ms.flatten ++ partialBlock MSG nb)

/-! ### The law that ties the interface to the source -/

/-- 44_commands.md R224, with the host as a list of events (log 2) and WAIT as one event (log 7): from any state with BUSY = 0, when the host runs the sequence of the rule for a message, with
any admitted accesses in between that are neither commands nor MSG writes, whatever spare bytes share the last word with
the message, and whenever the completions fall, the machine ends with PHASE = DONE, BUSY = 0, LEN = 8L mod 2^64, MSG all zero, ERR = 0, and the digest of H is hash(M). -/
def Obligations.InterfaceComputesTheHash : Prop :=
  ∀ (m spare : List Byte) (es : List Event) (s : State),
    s.BUSY = false → s.PEND = none → s.inbox = es →
    es.filter (fun e => !bystander e) = hashSequence m spare →
    ∃ n t, Reaches n s t ∧ t.inbox = [] ∧ t.Ended ∧ t.LEN.toNat = 8 * m.length % 2 ^ 64 ∧
      (∀ j : Fin 16, t.MSG[j] = 0) ∧ t.ERR = false ∧ digest t.H = hashOf m
end

