-- ==== Sys2Proof/Laws/Bytes.lean ====
section
/-! SUPPORT. Lengths of the byte sequences of the padding unit and the digest. -/

namespace Sys2Proof.Machine

@[simp] theorem be32_length (v : Word) : (be32 v).length = 4 := by simp [be32]

@[simp] theorem be64_length (v : Len) : (be64 v).length = 8 := by simp [be64]

@[simp] theorem msgBytes_length (MSG : Vector Word 16) : (msgBytes MSG).length = 64 := by simp [msgBytes]

/-- Byte k of the block MSG holds (20_memory.md R60). -/
theorem msgBytes_getElem (MSG : Vector Word 16) (k : Nat) (hk : k < 64) :
    (msgBytes MSG)[k]'(by simpa using hk) = wordByte MSG[k / 4] (k % 4) := by
  simp [msgBytes]

@[simp] theorem partialBlock_length (MSG : Vector Word 16) (nb : BitVec 6) :
    (partialBlock MSG nb).length = nb.toNat := by
  have := nb.isLt
  simp only [partialBlock, List.length_take, msgBytes_length]
  omega

/-- Every block of the padding unit has 64 bytes (40_padding.md R115, R117). -/
theorem padFinal_block_length (MSG : Vector Word 16) (nb : BitVec 6) (lenf : Len) :
    ∀ B ∈ padFinal MSG nb lenf, B.length = 64 := by
  have := nb.isLt
  intro B hB
  unfold padFinal at hB
  dsimp only at hB
  split at hB
  · simp only [List.mem_singleton] at hB
    subst hB
    simp
    omega
  · simp only [List.mem_cons, List.not_mem_nil, or_false] at hB
    rcases hB with rfl | rfl <;> simp
    omega

/-- The length field as a number: the sum wraps mod 2^64 (40_padding.md R114, 10_state.md R33). -/
theorem lengthField_toNat (LEN : Len) (nb : BitVec 6) :
    (lengthField LEN nb).toNat = (LEN.toNat + 8 * nb.toNat) % 2 ^ 64 := by
  have := nb.isLt
  unfold lengthField
  rw [BitVec.toNat_add, BitVec.toNat_mul, BitVec.toNat_setWidth, Nat.mod_eq_of_lt (by omega : nb.toNat < 2 ^ 64)]
  simp

/-- Byte k of a word as a number (20_memory.md R60, R61). -/
theorem wordByte_toNat (w : Word) (k : Nat) : (wordByte w k).toNat = w.toNat / 2 ^ (24 - 8 * k) % 256 := by
  simp [wordByte, BitVec.extractLsb'_toNat, Nat.shiftRight_eq_div_pow]

/-- Byte k of the length field as a number (20_memory.md R62). -/
theorem be64_getElem_toNat (v : Len) (k : Nat) (hk : k < 8) :
    ((be64 v)[k]'(by simpa using hk)).toNat = v.toNat / 2 ^ (56 - 8 * k) % 256 := by
  simp [be64, BitVec.extractLsb'_toNat, Nat.shiftRight_eq_div_pow]

@[simp] theorem digest_length (H : Vector Word 8) : (digest H).length = 32 := by
  simp [digest, List.length_flatMap]

end Sys2Proof.Machine
end

