-- ==== Sys2Proof/Laws/State.lean ====
section
/-! SUPPORT. One lemma per field per update of the state, each true by rfl, so that no later proof unfolds a record
update. -/

namespace Sys2Proof.Machine

@[simp] theorem State.raiseError_H (code : ErrCode) (s : State) : (s.raiseError code).H = s.H := rfl
@[simp] theorem State.raiseError_work (code : ErrCode) (s : State) : (s.raiseError code).work = s.work := rfl
@[simp] theorem State.raiseError_W (code : ErrCode) (s : State) : (s.raiseError code).W = s.W := rfl
@[simp] theorem State.raiseError_RND (code : ErrCode) (s : State) : (s.raiseError code).RND = s.RND := rfl
@[simp] theorem State.raiseError_MSG (code : ErrCode) (s : State) : (s.raiseError code).MSG = s.MSG := rfl
@[simp] theorem State.raiseError_LEN (code : ErrCode) (s : State) : (s.raiseError code).LEN = s.LEN := rfl
@[simp] theorem State.raiseError_BUSY (code : ErrCode) (s : State) : (s.raiseError code).BUSY = s.BUSY := rfl
@[simp] theorem State.raiseError_PHASE (code : ErrCode) (s : State) : (s.raiseError code).PHASE = s.PHASE := rfl
@[simp] theorem State.raiseError_ERR (code : ErrCode) (s : State) : (s.raiseError code).ERR = true := rfl
@[simp] theorem State.raiseError_ERRCODE (code : ErrCode) (s : State) : (s.raiseError code).ERRCODE = if s.ERR then s.ERRCODE else code := rfl
@[simp] theorem State.raiseError_PEND (code : ErrCode) (s : State) : (s.raiseError code).PEND = s.PEND := rfl
@[simp] theorem State.raiseError_inbox (code : ErrCode) (s : State) : (s.raiseError code).inbox = s.inbox := rfl
@[simp] theorem State.raiseError_outbox (code : ErrCode) (s : State) : (s.raiseError code).outbox = s.outbox := rfl
@[simp] theorem State.raiseError_slack (code : ErrCode) (s : State) : (s.raiseError code).slack = s.slack := rfl
@[simp] theorem State.raiseError_ticks (code : ErrCode) (s : State) : (s.raiseError code).ticks = s.ticks := rfl

@[simp] theorem State.clearError_H (s : State) : (s.clearError).H = s.H := rfl
@[simp] theorem State.clearError_work (s : State) : (s.clearError).work = s.work := rfl
@[simp] theorem State.clearError_W (s : State) : (s.clearError).W = s.W := rfl
@[simp] theorem State.clearError_RND (s : State) : (s.clearError).RND = s.RND := rfl
@[simp] theorem State.clearError_MSG (s : State) : (s.clearError).MSG = s.MSG := rfl
@[simp] theorem State.clearError_LEN (s : State) : (s.clearError).LEN = s.LEN := rfl
@[simp] theorem State.clearError_BUSY (s : State) : (s.clearError).BUSY = s.BUSY := rfl
@[simp] theorem State.clearError_PHASE (s : State) : (s.clearError).PHASE = s.PHASE := rfl
@[simp] theorem State.clearError_ERR (s : State) : (s.clearError).ERR = false := rfl
@[simp] theorem State.clearError_ERRCODE (s : State) : (s.clearError).ERRCODE = .none := rfl
@[simp] theorem State.clearError_PEND (s : State) : (s.clearError).PEND = s.PEND := rfl
@[simp] theorem State.clearError_inbox (s : State) : (s.clearError).inbox = s.inbox := rfl
@[simp] theorem State.clearError_outbox (s : State) : (s.clearError).outbox = s.outbox := rfl
@[simp] theorem State.clearError_slack (s : State) : (s.clearError).slack = s.slack := rfl
@[simp] theorem State.clearError_ticks (s : State) : (s.clearError).ticks = s.ticks := rfl

@[simp] theorem State.startComputation_H (s : State) : (s.startComputation).H = H0 := rfl
@[simp] theorem State.startComputation_work (s : State) : (s.startComputation).work = s.work := rfl
@[simp] theorem State.startComputation_W (s : State) : (s.startComputation).W = s.W := rfl
@[simp] theorem State.startComputation_RND (s : State) : (s.startComputation).RND = s.RND := rfl
@[simp] theorem State.startComputation_MSG (s : State) : (s.startComputation).MSG = clearedMsg := rfl
@[simp] theorem State.startComputation_LEN (s : State) : (s.startComputation).LEN = 0 := rfl
@[simp] theorem State.startComputation_BUSY (s : State) : (s.startComputation).BUSY = s.BUSY := rfl
@[simp] theorem State.startComputation_PHASE (s : State) : (s.startComputation).PHASE = .active := rfl
@[simp] theorem State.startComputation_ERR (s : State) : (s.startComputation).ERR = false := rfl
@[simp] theorem State.startComputation_ERRCODE (s : State) : (s.startComputation).ERRCODE = .none := rfl
@[simp] theorem State.startComputation_PEND (s : State) : (s.startComputation).PEND = s.PEND := rfl
@[simp] theorem State.startComputation_inbox (s : State) : (s.startComputation).inbox = s.inbox := rfl
@[simp] theorem State.startComputation_outbox (s : State) : (s.startComputation).outbox = s.outbox := rfl
@[simp] theorem State.startComputation_slack (s : State) : (s.startComputation).slack = s.slack := rfl
@[simp] theorem State.startComputation_ticks (s : State) : (s.startComputation).ticks = s.ticks := rfl

@[simp] theorem State.setPending_H (p : Pending) (s : State) : (s.setPending p).H = s.H := rfl
@[simp] theorem State.setPending_work (p : Pending) (s : State) : (s.setPending p).work = s.work := rfl
@[simp] theorem State.setPending_W (p : Pending) (s : State) : (s.setPending p).W = s.W := rfl
@[simp] theorem State.setPending_RND (p : Pending) (s : State) : (s.setPending p).RND = s.RND := rfl
@[simp] theorem State.setPending_MSG (p : Pending) (s : State) : (s.setPending p).MSG = s.MSG := rfl
@[simp] theorem State.setPending_LEN (p : Pending) (s : State) : (s.setPending p).LEN = s.LEN := rfl
@[simp] theorem State.setPending_BUSY (p : Pending) (s : State) : (s.setPending p).BUSY = true := rfl
@[simp] theorem State.setPending_PHASE (p : Pending) (s : State) : (s.setPending p).PHASE = s.PHASE := rfl
@[simp] theorem State.setPending_ERR (p : Pending) (s : State) : (s.setPending p).ERR = s.ERR := rfl
@[simp] theorem State.setPending_ERRCODE (p : Pending) (s : State) : (s.setPending p).ERRCODE = s.ERRCODE := rfl
@[simp] theorem State.setPending_PEND (p : Pending) (s : State) : (s.setPending p).PEND = some p := rfl
@[simp] theorem State.setPending_inbox (p : Pending) (s : State) : (s.setPending p).inbox = s.inbox := rfl
@[simp] theorem State.setPending_outbox (p : Pending) (s : State) : (s.setPending p).outbox = s.outbox := rfl
@[simp] theorem State.setPending_slack (p : Pending) (s : State) : (s.setPending p).slack = Config.completionDelay s.ticks := rfl
@[simp] theorem State.setPending_ticks (p : Pending) (s : State) : (s.setPending p).ticks = s.ticks + 1 := rfl

@[simp] theorem State.respond_H (v : Word) (s : State) : (s.respond v).H = s.H := rfl
@[simp] theorem State.respond_work (v : Word) (s : State) : (s.respond v).work = s.work := rfl
@[simp] theorem State.respond_W (v : Word) (s : State) : (s.respond v).W = s.W := rfl
@[simp] theorem State.respond_RND (v : Word) (s : State) : (s.respond v).RND = s.RND := rfl
@[simp] theorem State.respond_MSG (v : Word) (s : State) : (s.respond v).MSG = s.MSG := rfl
@[simp] theorem State.respond_LEN (v : Word) (s : State) : (s.respond v).LEN = s.LEN := rfl
@[simp] theorem State.respond_BUSY (v : Word) (s : State) : (s.respond v).BUSY = s.BUSY := rfl
@[simp] theorem State.respond_PHASE (v : Word) (s : State) : (s.respond v).PHASE = s.PHASE := rfl
@[simp] theorem State.respond_ERR (v : Word) (s : State) : (s.respond v).ERR = s.ERR := rfl
@[simp] theorem State.respond_ERRCODE (v : Word) (s : State) : (s.respond v).ERRCODE = s.ERRCODE := rfl
@[simp] theorem State.respond_PEND (v : Word) (s : State) : (s.respond v).PEND = s.PEND := rfl
@[simp] theorem State.respond_inbox (v : Word) (s : State) : (s.respond v).inbox = s.inbox := rfl
@[simp] theorem State.respond_outbox (v : Word) (s : State) : (s.respond v).outbox = s.outbox ++ [v] := rfl
@[simp] theorem State.respond_slack (v : Word) (s : State) : (s.respond v).slack = s.slack := rfl
@[simp] theorem State.respond_ticks (v : Word) (s : State) : (s.respond v).ticks = s.ticks := rfl

@[simp] theorem State.takeEvent_H (s : State) : (s.takeEvent).H = s.H := rfl
@[simp] theorem State.takeEvent_work (s : State) : (s.takeEvent).work = s.work := rfl
@[simp] theorem State.takeEvent_W (s : State) : (s.takeEvent).W = s.W := rfl
@[simp] theorem State.takeEvent_RND (s : State) : (s.takeEvent).RND = s.RND := rfl
@[simp] theorem State.takeEvent_MSG (s : State) : (s.takeEvent).MSG = s.MSG := rfl
@[simp] theorem State.takeEvent_LEN (s : State) : (s.takeEvent).LEN = s.LEN := rfl
@[simp] theorem State.takeEvent_BUSY (s : State) : (s.takeEvent).BUSY = s.BUSY := rfl
@[simp] theorem State.takeEvent_PHASE (s : State) : (s.takeEvent).PHASE = s.PHASE := rfl
@[simp] theorem State.takeEvent_ERR (s : State) : (s.takeEvent).ERR = s.ERR := rfl
@[simp] theorem State.takeEvent_ERRCODE (s : State) : (s.takeEvent).ERRCODE = s.ERRCODE := rfl
@[simp] theorem State.takeEvent_PEND (s : State) : (s.takeEvent).PEND = s.PEND := rfl
@[simp] theorem State.takeEvent_inbox (s : State) : (s.takeEvent).inbox = s.inbox.tail := rfl
@[simp] theorem State.takeEvent_outbox (s : State) : (s.takeEvent).outbox = s.outbox := rfl
@[simp] theorem State.takeEvent_slack (s : State) : (s.takeEvent).slack = s.slack - 1 := rfl
@[simp] theorem State.takeEvent_ticks (s : State) : (s.takeEvent).ticks = s.ticks := rfl

@[simp] theorem State.platformReset_H (s : State) : (s.platformReset).H = State.reset.H := rfl
@[simp] theorem State.platformReset_work (s : State) : (s.platformReset).work = State.reset.work := rfl
@[simp] theorem State.platformReset_W (s : State) : (s.platformReset).W = State.reset.W := rfl
@[simp] theorem State.platformReset_RND (s : State) : (s.platformReset).RND = State.reset.RND := rfl
@[simp] theorem State.platformReset_MSG (s : State) : (s.platformReset).MSG = State.reset.MSG := rfl
@[simp] theorem State.platformReset_LEN (s : State) : (s.platformReset).LEN = State.reset.LEN := rfl
@[simp] theorem State.platformReset_BUSY (s : State) : (s.platformReset).BUSY = State.reset.BUSY := rfl
@[simp] theorem State.platformReset_PHASE (s : State) : (s.platformReset).PHASE = State.reset.PHASE := rfl
@[simp] theorem State.platformReset_ERR (s : State) : (s.platformReset).ERR = State.reset.ERR := rfl
@[simp] theorem State.platformReset_ERRCODE (s : State) : (s.platformReset).ERRCODE = State.reset.ERRCODE := rfl
@[simp] theorem State.platformReset_PEND (s : State) : (s.platformReset).PEND = State.reset.PEND := rfl
@[simp] theorem State.platformReset_inbox (s : State) : (s.platformReset).inbox = s.inbox := rfl
@[simp] theorem State.platformReset_outbox (s : State) : (s.platformReset).outbox = s.outbox := rfl
@[simp] theorem State.platformReset_slack (s : State) : (s.platformReset).slack = s.slack := rfl
@[simp] theorem State.platformReset_ticks (s : State) : (s.platformReset).ticks = s.ticks := rfl

@[simp] theorem State.withNextEvent_H (e : Event) (s : State) : (s.withNextEvent e).H = s.H := rfl
@[simp] theorem State.withNextEvent_work (e : Event) (s : State) : (s.withNextEvent e).work = s.work := rfl
@[simp] theorem State.withNextEvent_W (e : Event) (s : State) : (s.withNextEvent e).W = s.W := rfl
@[simp] theorem State.withNextEvent_RND (e : Event) (s : State) : (s.withNextEvent e).RND = s.RND := rfl
@[simp] theorem State.withNextEvent_MSG (e : Event) (s : State) : (s.withNextEvent e).MSG = s.MSG := rfl
@[simp] theorem State.withNextEvent_LEN (e : Event) (s : State) : (s.withNextEvent e).LEN = s.LEN := rfl
@[simp] theorem State.withNextEvent_BUSY (e : Event) (s : State) : (s.withNextEvent e).BUSY = s.BUSY := rfl
@[simp] theorem State.withNextEvent_PHASE (e : Event) (s : State) : (s.withNextEvent e).PHASE = s.PHASE := rfl
@[simp] theorem State.withNextEvent_ERR (e : Event) (s : State) : (s.withNextEvent e).ERR = s.ERR := rfl
@[simp] theorem State.withNextEvent_ERRCODE (e : Event) (s : State) : (s.withNextEvent e).ERRCODE = s.ERRCODE := rfl
@[simp] theorem State.withNextEvent_PEND (e : Event) (s : State) : (s.withNextEvent e).PEND = s.PEND := rfl
@[simp] theorem State.withNextEvent_inbox (e : Event) (s : State) : (s.withNextEvent e).inbox = e :: s.inbox := rfl
@[simp] theorem State.withNextEvent_outbox (e : Event) (s : State) : (s.withNextEvent e).outbox = s.outbox := rfl
@[simp] theorem State.withNextEvent_slack (e : Event) (s : State) : (s.withNextEvent e).slack = s.slack + 1 := rfl
@[simp] theorem State.withNextEvent_ticks (e : Event) (s : State) : (s.withNextEvent e).ticks = s.ticks := rfl

@[simp] theorem State.expandBlock_H (B : List Byte) (s : State) : (s.expandBlock B).H = s.H := rfl
@[simp] theorem State.expandBlock_work (B : List Byte) (s : State) : (s.expandBlock B).work = s.work := rfl
@[simp] theorem State.expandBlock_W (B : List Byte) (s : State) : (s.expandBlock B).W = expandInto s.W B := rfl
@[simp] theorem State.expandBlock_RND (B : List Byte) (s : State) : (s.expandBlock B).RND = s.RND := rfl
@[simp] theorem State.expandBlock_MSG (B : List Byte) (s : State) : (s.expandBlock B).MSG = s.MSG := rfl
@[simp] theorem State.expandBlock_LEN (B : List Byte) (s : State) : (s.expandBlock B).LEN = s.LEN := rfl
@[simp] theorem State.expandBlock_BUSY (B : List Byte) (s : State) : (s.expandBlock B).BUSY = s.BUSY := rfl
@[simp] theorem State.expandBlock_PHASE (B : List Byte) (s : State) : (s.expandBlock B).PHASE = s.PHASE := rfl
@[simp] theorem State.expandBlock_ERR (B : List Byte) (s : State) : (s.expandBlock B).ERR = s.ERR := rfl
@[simp] theorem State.expandBlock_ERRCODE (B : List Byte) (s : State) : (s.expandBlock B).ERRCODE = s.ERRCODE := rfl
@[simp] theorem State.expandBlock_PEND (B : List Byte) (s : State) : (s.expandBlock B).PEND = s.PEND := rfl
@[simp] theorem State.expandBlock_inbox (B : List Byte) (s : State) : (s.expandBlock B).inbox = s.inbox := rfl
@[simp] theorem State.expandBlock_outbox (B : List Byte) (s : State) : (s.expandBlock B).outbox = s.outbox := rfl
@[simp] theorem State.expandBlock_slack (B : List Byte) (s : State) : (s.expandBlock B).slack = s.slack := rfl
@[simp] theorem State.expandBlock_ticks (B : List Byte) (s : State) : (s.expandBlock B).ticks = s.ticks := rfl

@[simp] theorem State.loadWorking_H (s : State) : (s.loadWorking).H = s.H := rfl
@[simp] theorem State.loadWorking_work (s : State) : (s.loadWorking).work = Working.load s.H := rfl
@[simp] theorem State.loadWorking_W (s : State) : (s.loadWorking).W = s.W := rfl
@[simp] theorem State.loadWorking_RND (s : State) : (s.loadWorking).RND = 0 := rfl
@[simp] theorem State.loadWorking_MSG (s : State) : (s.loadWorking).MSG = s.MSG := rfl
@[simp] theorem State.loadWorking_LEN (s : State) : (s.loadWorking).LEN = s.LEN := rfl
@[simp] theorem State.loadWorking_BUSY (s : State) : (s.loadWorking).BUSY = s.BUSY := rfl
@[simp] theorem State.loadWorking_PHASE (s : State) : (s.loadWorking).PHASE = s.PHASE := rfl
@[simp] theorem State.loadWorking_ERR (s : State) : (s.loadWorking).ERR = s.ERR := rfl
@[simp] theorem State.loadWorking_ERRCODE (s : State) : (s.loadWorking).ERRCODE = s.ERRCODE := rfl
@[simp] theorem State.loadWorking_PEND (s : State) : (s.loadWorking).PEND = s.PEND := rfl
@[simp] theorem State.loadWorking_inbox (s : State) : (s.loadWorking).inbox = s.inbox := rfl
@[simp] theorem State.loadWorking_outbox (s : State) : (s.loadWorking).outbox = s.outbox := rfl
@[simp] theorem State.loadWorking_slack (s : State) : (s.loadWorking).slack = s.slack := rfl
@[simp] theorem State.loadWorking_ticks (s : State) : (s.loadWorking).ticks = s.ticks := rfl

@[simp] theorem State.addBack_H (s : State) : (s.addBack).H = accumulate s.H s.work := rfl
@[simp] theorem State.addBack_work (s : State) : (s.addBack).work = s.work := rfl
@[simp] theorem State.addBack_W (s : State) : (s.addBack).W = s.W := rfl
@[simp] theorem State.addBack_RND (s : State) : (s.addBack).RND = s.RND := rfl
@[simp] theorem State.addBack_MSG (s : State) : (s.addBack).MSG = s.MSG := rfl
@[simp] theorem State.addBack_LEN (s : State) : (s.addBack).LEN = s.LEN := rfl
@[simp] theorem State.addBack_BUSY (s : State) : (s.addBack).BUSY = s.BUSY := rfl
@[simp] theorem State.addBack_PHASE (s : State) : (s.addBack).PHASE = s.PHASE := rfl
@[simp] theorem State.addBack_ERR (s : State) : (s.addBack).ERR = s.ERR := rfl
@[simp] theorem State.addBack_ERRCODE (s : State) : (s.addBack).ERRCODE = s.ERRCODE := rfl
@[simp] theorem State.addBack_PEND (s : State) : (s.addBack).PEND = s.PEND := rfl
@[simp] theorem State.addBack_inbox (s : State) : (s.addBack).inbox = s.inbox := rfl
@[simp] theorem State.addBack_outbox (s : State) : (s.addBack).outbox = s.outbox := rfl
@[simp] theorem State.addBack_slack (s : State) : (s.addBack).slack = s.slack := rfl
@[simp] theorem State.addBack_ticks (s : State) : (s.addBack).ticks = s.ticks := rfl

/-- Taking the event just placed gives the state back. -/
@[simp] theorem State.takeEvent_withNextEvent (e : Event) (s : State) : (s.withNextEvent e).takeEvent = s := rfl

end Sys2Proof.Machine
end

