-- ==== Sys2Proof/Laws/Datapath.lean ====
section
/-! SUPPORT. What the engine's own registers do when one block is compressed: the schedule does not depend on what W
held before, the rounds on the registers are the fold of 42_compression.md R157, and `State.compressInto` writes
exactly H, a..h, W and RND. -/

namespace Sys2Proof.Machine

/-- Two schedules agree below index `n`. -/
def AgreeBelow (n : Nat) (V W : Vector Word 64) : Prop := ∀ j, (h : j < 64) → j < n → V[j] = W[j]

/-- The parse writes the first 16 words, whatever W held (41_schedule.md R130). -/
theorem parseInto_agree (V W : Vector Word 64) (B : List Byte) :
    AgreeBelow 16 (parseInto V B) (parseInto W B) := by
  intro j h hj
  simp [parseInto, hj]

/-- A turn of the recurrence reads only words below the one it writes (41_schedule.md R133). -/
theorem expandWord_agree {V W : Vector Word 64} (i : Fin 48) (h : AgreeBelow (i.val + 16) V W) :
    AgreeBelow (i.val + 17) (expandWord V i) (expandWord W i) := by
  intro j hj hlt
  unfold expandWord
  rw [h (i.val + 14) (by omega) (by omega), h (i.val + 9) (by omega) (by omega),
    h (i.val + 1) (by omega) (by omega), h i.val (by omega) (by omega)]
  by_cases heq : i.val + 16 = j
  · subst heq
    simp
  · rw [Vector.getElem_set_ne _ _ heq, Vector.getElem_set_ne _ _ heq]
    exact h j hj (by omega)

/-- The expansion up to turn `n` agrees below `16 + n`. -/
theorem expandTake_agree (V W : Vector Word 64) (h : AgreeBelow 16 V W) (n : Nat) (hn : n ≤ 48) :
    AgreeBelow (n + 16) (((List.finRange 48).take n).foldl expandWord V)
      (((List.finRange 48).take n).foldl expandWord W) := by
  induction n with
  | zero => simpa using h
  | succ n ih =>
    have hlen : n < (List.finRange 48).length := by simpa using hn
    rw [List.take_succ_eq_append_getElem hlen, List.foldl_append, List.foldl_append]
    have := expandWord_agree (⟨n, by omega⟩ : Fin 48) (ih (by omega))
    simpa using this

/-- W after the expander depends on the block alone (41_schedule.md R135; 10_state.md R26). -/
theorem expandInto_eq_expand (W : Vector Word 64) (B : List Byte) : expandInto W B = expand B := by
  have h := expandTake_agree _ _ (parseInto_agree W (Vector.replicate 64 0) B) 48 (by omega)
  unfold expand expandInto
  rw [List.take_of_length_le (by simp)] at h
  exact Vector.ext fun j hj => h j hj (by omega)

/-- The rounds from round `j` on, as a fold (42_compression.md R157). -/
def roundsFrom (W : Vector Word 64) (j n : Nat) (r : Working) : Working :=
  (((List.finRange 64).drop j).take n).foldl (fun r j => compressRound K[j] W[j] r) r

/-- One round less to go. -/
theorem roundsFrom_succ (W : Vector Word 64) (j n : Nat) (h : j < 64) (r : Working) :
    roundsFrom W j (n + 1) r = roundsFrom W (j + 1) n (compressRound K[j] W[j] r) := by
  unfold roundsFrom
  rw [List.drop_eq_getElem_cons (by simpa using h)]
  simp

/-- `n` rounds on the registers are the fold over their indices, and RND counts them (10_state.md R27). -/
theorem State.runRounds_eq (n : Nat) (s : State) (h : s.RND.val + n < 65) :
    s.runRounds n = { s with work := roundsFrom s.W s.RND.val n s.work, RND := ⟨s.RND.val + n, h⟩ } := by
  induction n generalizing s with
  | zero => simp [State.runRounds, roundsFrom]
  | succ n ih =>
    have hlt : s.RND.val < 64 := by omega
    have hstep : s.runRound =
        { s with work := compressRound K[s.RND.val] s.W[s.RND.val] s.work, RND := ⟨s.RND.val + 1, by omega⟩ } := by
      simp [State.runRound, hlt]
    rw [State.runRounds, hstep, ih _ (by simp; omega)]
    simp only [roundsFrom_succ s.W s.RND.val n hlt]
    congr 2
    omega

/-- What compressing one block does to the state, all of it: H takes `CompressBlock(H, B)` (R181), and W, a..h and
RND are left as the compression of the block leaves them. -/
theorem State.compressInto_eq (B : List Byte) (s : State) :
    s.compressInto B =
      { s with
        H := compressBlock s.H B
        work := compressRounds s.H (expand B)
        W := expand B
        RND := 64 } := by
  have h : roundsFrom (expand B) 0 64 (Working.load s.H) = compressRounds s.H (expand B) := by
    unfold roundsFrom compressRounds
    rw [List.drop_zero, List.take_of_length_le (by simp)]
  unfold State.compressInto
  rw [State.runRounds_eq 64 _ (by simp)]
  simp [State.addBack, State.loadWorking, State.expandBlock, expandInto_eq_expand, compressBlock, h]

end Sys2Proof.Machine
end

