-- ==== Sys2Proof/Laws/Commands.lean ====
section
/-! SUPPORT. What a command's issue and its completion do, once and for all. -/

namespace Sys2Proof.Machine

/-- What a command does when BUSY = 0 (44_commands.md R201). -/
def commandEffect : Instr → State → State
  | .nop, s => s
  | .init, s => s.startComputation
  | .block, s => s.issueInActive .block
  | .final nb, s => s.issueInActive (.final nb)
  | .clrerr, s => s.clearError

/-- Every command answers a next state: the BUSY error, or its effect (44_commands.md R201). -/
theorem exec_eq (i : Instr) (s : State) :
    exec i s = .next (if s.BUSY then s.raiseError .busy else commandEffect i s) := by
  cases i <;> rfl

theorem exec_of_busy (i : Instr) {s : State} (h : s.BUSY = true) : exec i s = .next (s.raiseError .busy) := by
  simp [exec_eq, h]

theorem exec_of_not_busy (i : Instr) {s : State} (h : s.BUSY = false) : exec i s = .next (commandEffect i s) := by
  simp [exec_eq, h]

/-- Issue in ACTIVE fills the slot; elsewhere it raises SEQUENCE (44_commands.md R210, R215). -/
theorem State.issueInActive_cases (p : Pending) (s : State) :
    (s.PHASE = .active ∧ s.issueInActive p = s.setPending p) ∨
      (s.PHASE ≠ .active ∧ s.issueInActive p = s.raiseError .sequence) := by
  by_cases h : s.PHASE = .active
  · exact .inl ⟨h, by simp [State.issueInActive, h]⟩
  · exact .inr ⟨h, by simp [State.issueInActive, h]⟩

/-- The issue of BLOCK or FINAL leaves H, LEN, MSG, PHASE, the hidden registers and the surroundings alone. -/
theorem State.issueInActive_frame (p : Pending) (s : State) :
    let t := s.issueInActive p
    t.H = s.H ∧ t.LEN = s.LEN ∧ t.MSG = s.MSG ∧ t.PHASE = s.PHASE ∧ t.work = s.work ∧ t.W = s.W ∧ t.RND = s.RND ∧
      t.inbox = s.inbox ∧ t.outbox = s.outbox := by
  rcases State.issueInActive_cases p s with ⟨_, h⟩ | ⟨_, h⟩ <;> simp [h]

/-- A CMD write: the BUSY error, the ILLEGAL error, or the decoded command's effect (60_exceptions.md R255). -/
theorem issueCmd_eq (v : Word) (s : State) :
    issueCmd v s = .next
      (if s.BUSY then s.raiseError .busy
      else match decode v with
        | .error _ => s.raiseError .illegal
        | .ok i => commandEffect i s) := by
  unfold issueCmd
  by_cases h : s.BUSY = true
  · simp [h]
  · simp only [h]
    cases hd : decode v with
    | error e => simp
    | ok i => simp [exec_of_not_busy i (by simpa using h)]

/-- Compressing blocks one after another writes H as the fold of `CompressBlock`, and nothing else that another agent
can see. -/
theorem State.compressAll_eq (Bs : List (List Byte)) (s : State) :
    Bs.foldl (fun t B => t.compressInto B) s =
      { s with
        H := Bs.foldl compressBlock s.H
        work := (Bs.foldl (fun t B => t.compressInto B) s).work
        W := (Bs.foldl (fun t B => t.compressInto B) s).W
        RND := (Bs.foldl (fun t B => t.compressInto B) s).RND } := by
  induction Bs generalizing s with
  | nil => rfl
  | cons B Bs ih =>
    simp only [List.foldl_cons]
    rw [ih (s.compressInto B)]
    simp [State.compressInto_eq]

/-- `CompleteBlock`, field by field (44_commands.md R211). -/
theorem completeBlock_eq (s : State) :
    completeBlock s =
      { s with
        H := compressBlock s.H (msgBytes s.MSG)
        work := compressRounds s.H (expand (msgBytes s.MSG))
        W := expand (msgBytes s.MSG)
        RND := 64
        LEN := s.LEN + 512
        PEND := none
        BUSY := false } := by
  unfold completeBlock
  rw [State.compressInto_eq]

/-- `CompleteFinal(NB)`, field by field (44_commands.md R216). -/
theorem completeFinal_eq (nb : BitVec 6) (s : State) :
    completeFinal nb s =
      { s with
        H := (padFinal s.MSG nb (lengthField s.LEN nb)).foldl compressBlock s.H
        work := (completeFinal nb s).work
        W := (completeFinal nb s).W
        RND := (completeFinal nb s).RND
        LEN := lengthField s.LEN nb
        MSG := clearedMsg
        PHASE := .done
        PEND := none
        BUSY := false } := by
  unfold completeFinal
  rw [State.compressAll_eq]

/-- The H a completion writes (44_commands.md R211, R216). -/
def completedH (H : Vector Word 8) (MSG : Vector Word 16) (LEN : Len) : Pending → Vector Word 8
  | .block => compressBlock H (msgBytes MSG)
  | .final nb => (padFinal MSG nb (lengthField LEN nb)).foldl compressBlock H

/-- The LEN a completion writes (10_state.md R32). -/
def completedLen (LEN : Len) : Pending → Len
  | .block => LEN + 512
  | .final nb => lengthField LEN nb

/-- The MSG a completion leaves (10_state.md R30). -/
def completedMsg (MSG : Vector Word 16) : Pending → Vector Word 16
  | .block => MSG
  | .final _ => clearedMsg

/-- The PHASE a completion leaves (10_state.md R37). -/
def completedPhase (PHASE : Phase) : Pending → Phase
  | .block => PHASE
  | .final _ => .done

/-- Everything a completion does (44_commands.md R220). -/
theorem complete_eq (p : Pending) (s : State) :
    complete p s =
      { s with
        H := completedH s.H s.MSG s.LEN p
        work := (complete p s).work
        W := (complete p s).W
        RND := (complete p s).RND
        LEN := completedLen s.LEN p
        MSG := completedMsg s.MSG p
        PHASE := completedPhase s.PHASE p
        PEND := none
        BUSY := false } := by
  cases p with
  | block => simp only [complete, completedH, completedLen, completedMsg, completedPhase, completeBlock_eq]
  | final nb =>
    simp only [complete, completedH, completedLen, completedMsg, completedPhase]
    exact completeFinal_eq nb s

@[simp] theorem complete_H (p : Pending) (s : State) : (complete p s).H = completedH s.H s.MSG s.LEN p := by
  rw [complete_eq]
@[simp] theorem complete_LEN (p : Pending) (s : State) : (complete p s).LEN = completedLen s.LEN p := by
  rw [complete_eq]
@[simp] theorem complete_MSG (p : Pending) (s : State) : (complete p s).MSG = completedMsg s.MSG p := by
  rw [complete_eq]
@[simp] theorem complete_PHASE (p : Pending) (s : State) : (complete p s).PHASE = completedPhase s.PHASE p := by
  rw [complete_eq]
@[simp] theorem complete_BUSY (p : Pending) (s : State) : (complete p s).BUSY = false := by rw [complete_eq]
@[simp] theorem complete_PEND (p : Pending) (s : State) : (complete p s).PEND = none := by rw [complete_eq]
@[simp] theorem complete_ERR (p : Pending) (s : State) : (complete p s).ERR = s.ERR := by rw [complete_eq]
@[simp] theorem complete_ERRCODE (p : Pending) (s : State) : (complete p s).ERRCODE = s.ERRCODE := by
  rw [complete_eq]
@[simp] theorem complete_inbox (p : Pending) (s : State) : (complete p s).inbox = s.inbox := by rw [complete_eq]
@[simp] theorem complete_outbox (p : Pending) (s : State) : (complete p s).outbox = s.outbox := by rw [complete_eq]
@[simp] theorem complete_slack (p : Pending) (s : State) : (complete p s).slack = s.slack := by rw [complete_eq]
@[simp] theorem complete_ticks (p : Pending) (s : State) : (complete p s).ticks = s.ticks := by rw [complete_eq]

end Sys2Proof.Machine
end

