-- ==== Sys2Proof/Laws/PerInstr.lean ====
section
/-! SUPPORT. Families of facts made per instruction. ReservedZero: the reserved bits of a command's word are 0
(30_encoding.md R90, R91). -/

namespace Sys2Proof.Laws.ReservedZero

/-- RSV0 and RSV1 of the word of `i` are 0. -/
def Statement (i : Instr) : Prop := fieldRsv0 (encode i) = 0 ∧ fieldRsv1 (encode i) = 0

theorem nop : Statement .nop := ⟨rfl, rfl⟩
theorem init : Statement .init := ⟨rfl, rfl⟩
theorem block : Statement .block := ⟨rfl, rfl⟩
theorem final (nb : BitVec 6) : Statement (.final nb) := by
  unfold Statement
  revert nb
  decide
theorem clrerr : Statement .clrerr := ⟨rfl, rfl⟩

end Sys2Proof.Laws.ReservedZero
end

