-- ==== Sys2Proof/Laws/Window.lean ====
section
/-! SUPPORT. The address map and the accesses, case by case. -/

namespace Sys2Proof.Machine

/-- The offset of MSG[j] selects MSG[j] (20_memory.md R64). -/
@[simp] theorem regAt_msg (j : Fin 16) : regAt (BitVec.ofNat 8 (0x40 + 4 * j.val)) = .msg j := by
  revert j; decide

/-- The offset of HASH[i] selects HASH[i] (20_memory.md R64). -/
@[simp] theorem regAt_hash (i : Fin 8) : regAt (BitVec.ofNat 8 (0x80 + 4 * i.val)) = .hash i := by
  revert i; decide

/-- Only offset 0x00 is CMD (20_memory.md R64). -/
theorem regAt_eq_cmd {o : BitVec 8} : regAt o = .cmd ↔ o = 0 := by
  revert o; decide

/-- Only 0x40 + 4j is MSG[j], among the offsets that are a multiple of 4 (20_memory.md R64). -/
theorem offset_of_regAt_msg {o : BitVec 8} {j : Fin 16} (ha : o.toNat % 4 = 0) (h : regAt o = .msg j) :
    o = BitVec.ofNat 8 (0x40 + 4 * j.val) := by
  revert o j; decide

/-- An admitted read answers the register and changes nothing else (20_memory.md R74). -/
theorem performAccess_read (o : BitVec 8) (s : State) (h : o.toNat % 4 = 0) :
    performAccess (.read 4 o) s = .next (s.respond (s.readReg (regAt o))) := by
  simp [performAccess, Access.admitted, h]

/-- An admitted write is the register's write. -/
theorem performAccess_write (o : BitVec 8) (v : Word) (s : State) (h : o.toNat % 4 = 0) :
    performAccess (.write 4 o v) s = writeReg (regAt o) v s := by
  simp [performAccess, Access.admitted, h]

/-- A write to CMD issues the word (20_memory.md R72). -/
theorem performAccess_cmd (v : Word) (s : State) : performAccess (.write 4 0x00 v) s = issueCmd v s := rfl

/-- WAIT goes on exactly while BUSY = 1: bit 0 of STATUS is BUSY (10_state.md R34). -/
theorem State.statusWord_getLsbD_zero (s : State) : s.statusWord.getLsbD 0 = s.BUSY := by
  unfold State.statusWord
  rw [BitVec.getLsbD_append]
  cases s.BUSY <;> simp

@[simp] theorem State.statusWord_bit_zero (s : State) : s.statusWord[0] = s.BUSY := by
  rw [← s.statusWord_getLsbD_zero]
  simp

/-- Taking an event does not change STATUS. -/
@[simp] theorem State.statusWord_takeEvent (s : State) : s.takeEvent.statusWord = s.statusWord := rfl

/-- One turn of WAIT answers STATUS, and puts WAIT back while BUSY = 1 (30_encoding.md R100). -/
theorem waitTurn_eq (s : State) :
    waitTurn s =
      { s with
        inbox := if s.BUSY then .wait :: s.inbox else s.inbox
        outbox := s.outbox ++ [s.statusWord] } := by
  unfold waitTurn
  rw [State.statusWord_getLsbD_zero]
  by_cases h : s.BUSY = true <;> simp [h, State.respond]

end Sys2Proof.Machine
end

