-- ==== Sys2Proof/Laws/Step.lean ====
section
/-! SUPPORT. Everything a step can do, said once: `step_cases`. -/

namespace Sys2Proof.Machine

theorem State.nextEvent_eq_event {s : State} {e : Event} (h : s.nextEvent = .event e) :
    s.inbox = e :: s.inbox.tail := by
  unfold State.nextEvent at h
  split at h
  · cases h
  · rename_i e' es heq
    cases h
    simp [heq]

/-- An event is due only when it is first in the inbox and no completion comes before it. -/
theorem State.nextMove_event {s : State} {e : Event} (h : s.nextMove = .event e) :
    s.inbox = e :: s.inbox.tail ∧ (s.PEND = none ∨ s.slack ≠ 0) := by
  unfold State.nextMove at h
  split at h
  · split at h
    · cases h
    · rename_i hno
      exact ⟨State.nextEvent_eq_event h, .inr fun h0 => hno (.inl h0)⟩
  · rename_i hp
    exact ⟨State.nextEvent_eq_event h, .inl hp⟩

/-- A completion is due only for the pending command, when its delay has run out or no event is left. -/
theorem State.nextMove_complete {s : State} {p : Pending} (h : s.nextMove = .complete p) :
    s.PEND = some p ∧ (s.slack = 0 ∨ s.inbox = []) := by
  unfold State.nextMove State.nextEvent at h
  split at h
  · rename_i q hq
    split at h
    · rename_i hd
      cases h
      exact ⟨hq, hd⟩
    · split at h <;> cases h
  · split at h <;> cases h

/-- The machine is idle only when nothing is pending and nothing is asked. -/
theorem State.nextMove_idle {s : State} (h : s.nextMove = .idle) : s.PEND = none ∧ s.inbox = [] := by
  unfold State.nextMove State.nextEvent at h
  split at h
  · split at h
    · cases h
    · rename_i hno
      split at h
      · rename_i hnil
        exact absurd (.inr hnil) hno
      · cases h
  · rename_i hp
    split at h
    · rename_i hnil
      exact ⟨hp, hnil⟩
    · cases h

theorem State.nextMove_of_delay {s : State} {p : Pending} (h : s.PEND = some p) (hd : s.slack = 0 ∨ s.inbox = []) :
    s.nextMove = .complete p := by
  simp [State.nextMove, h, hd]

theorem State.nextMove_of_slack {s : State} {e : Event} {es : List Event} (hi : s.inbox = e :: es)
    (h : s.PEND = none ∨ s.slack ≠ 0) : s.nextMove = .event e := by
  unfold State.nextMove State.nextEvent
  rcases h with h | h
  · simp [h, hi]
  · cases hp : s.PEND <;> simp [hi, h]

/-- What a step that answers a next state has done. -/
inductive StepCase (s t : State) : Prop where
  /-- The pending command has completed (44_commands.md R220). -/
  | completion (p : Pending) (hm : s.nextMove = .complete p) (ht : t = complete p s)
  /-- Nothing was pending and nothing was asked. -/
  | idle (hm : s.nextMove = .idle) (ht : t = s)
  /-- The platform has reset the engine (70_reset_and_hazards.md R280). -/
  | reset (hm : s.nextMove = .event .reset) (ht : t = s.takeEvent.platformReset)
  /-- The host's WAIT has read STATUS once (30_encoding.md R100). -/
  | wait (hm : s.nextMove = .event .wait) (ht : t = waitTurn s.takeEvent)
  /-- The host has read a register (20_memory.md R65 to R71). -/
  | read (o : BitVec 8) (ha : o.toNat % 4 = 0) (hm : s.nextMove = .event (.bus (.read 4 o)))
      (ht : t = s.takeEvent.respond (s.readReg (regAt o)))
  /-- The host has written where writes are ignored (20_memory.md R71, R73). -/
  | ignored (o : BitVec 8) (v : Word) (ha : o.toNat % 4 = 0) (hc : regAt o ≠ .cmd) (hj : ∀ j, regAt o ≠ .msg j)
      (hm : s.nextMove = .event (.bus (.write 4 o v))) (ht : t = s.takeEvent)
  /-- The host has written MSG[j] (20_memory.md R69). -/
  | message (j : Fin 16) (v : Word)
      (hm : s.nextMove = .event (.bus (.write 4 (BitVec.ofNat 8 (0x40 + 4 * j.val)) v)))
      (ht : t = s.takeEvent.writeMsg j v)
  /-- The host has written CMD while BUSY = 1 (60_exceptions.md R254). -/
  | busy (w : Word) (hm : s.nextMove = .event (cmdWrite w)) (hb : s.BUSY = true)
      (ht : t = s.takeEvent.raiseError .busy)
  /-- The host has written an Illegal word to CMD (60_exceptions.md R252). -/
  | illegal (w : Word) (e : DecodeError) (hm : s.nextMove = .event (cmdWrite w)) (hb : s.BUSY = false)
      (hd : decode w = .error e) (ht : t = s.takeEvent.raiseError .illegal)
  /-- The host has issued a command (44_commands.md R201). -/
  | command (w : Word) (i : Instr) (hm : s.nextMove = .event (cmdWrite w)) (hb : s.BUSY = false)
      (hd : decode w = .ok i) (ht : t = commandEffect i s.takeEvent)

/-- The register a read answers does not depend on the surroundings. -/
@[simp] theorem State.readReg_takeEvent (s : State) (r : Reg) : s.takeEvent.readReg r = s.readReg r := by
  cases r <;> rfl

/-- An access that answers a next state is 32 bits wide and aligned (20_memory.md R63). -/
theorem admitted_of_performAccess {a : Access} {s t : State} (h : performAccess a s = .next t) : a.admitted = true := by
  unfold performAccess at h
  split at h
  · assumption
  · cases h

theorem step_write_cases {s t : State} {o : BitVec 8} {v : Word} (ha : o.toNat % 4 = 0)
    (hm : s.nextMove = .event (.bus (.write 4 o v)))
    (h : writeReg (regAt o) v s.takeEvent = .next t) : StepCase s t := by
  have key : ∀ r, regAt o = r → r ≠ .cmd → (∀ j, r ≠ .msg j) → t = s.takeEvent → StepCase s t :=
    fun r hr hc hj ht => .ignored o v ha (hr ▸ hc) (fun j => hr ▸ hj j) hm ht
  cases hr : regAt o with
  | cmd =>
    have ho := regAt_eq_cmd.1 hr
    subst ho
    rw [hr] at h
    simp only [writeReg, issueCmd_eq, Host.Outcome.next.injEq, State.takeEvent_BUSY] at h
    by_cases hb : s.BUSY = true
    · exact .busy v hm hb (by simpa [hb] using h.symm)
    · have hb' : s.BUSY = false := by simpa using hb
      cases hd : decode v with
      | error e => exact .illegal v e hm hb' hd (by simpa [hb', hd] using h.symm)
      | ok i => exact .command v i hm hb' hd (by simpa [hb', hd] using h.symm)
  | msg j =>
    have ho := offset_of_regAt_msg ha hr
    subst ho
    rw [hr] at h
    exact .message j v hm (by simpa [writeReg] using h.symm)
  | status => exact key _ hr (by simp) (by simp) (by simpa [hr, writeReg] using h.symm)
  | lenLo => exact key _ hr (by simp) (by simp) (by simpa [hr, writeReg] using h.symm)
  | lenHi => exact key _ hr (by simp) (by simp) (by simpa [hr, writeReg] using h.symm)
  | hash i => exact key _ hr (by simp) (by simp) (by simpa [hr, writeReg] using h.symm)
  | reserved => exact key _ hr (by simp) (by simp) (by simpa [hr, writeReg] using h.symm)

/-- Everything a step can do when it answers a next state. -/
theorem step_cases {s t : State} (h : step s = .next t) : StepCase s t := by
  unfold step at h
  cases hm : s.nextMove with
  | complete p => exact .completion p hm (by simpa [hm, performMove] using h.symm)
  | idle => exact .idle hm (by simpa [hm, performMove] using h.symm)
  | event e =>
    rw [hm] at h
    cases e with
    | reset => exact .reset hm (by simpa [performMove, performEvent] using h.symm)
    | wait => exact .wait hm (by simpa [performMove, performEvent] using h.symm)
    | bus a =>
      simp only [performMove, performEvent] at h
      have hadm := admitted_of_performAccess h
      cases a with
      | read size o =>
        simp only [Access.admitted, Bool.and_eq_true, beq_iff_eq] at hadm
        obtain ⟨rfl, ha⟩ := hadm
        rw [performAccess_read o _ ha] at h
        exact .read o ha hm (by simpa using h.symm)
      | write size o v =>
        simp only [Access.admitted, Bool.and_eq_true, beq_iff_eq] at hadm
        obtain ⟨rfl, ha⟩ := hadm
        rw [performAccess_write o v _ ha] at h
        exact step_write_cases ha hm h

end Sys2Proof.Machine
end

