-- ==== Sys2Proof/Laws/Run.lean ====
section
/-! SUPPORT. Runs: composition, and the link to the host's `Core.run`. -/

namespace Sys2Proof.Machine

@[simp] theorem reaches_zero (s : State) : Reaches 0 s s := rfl

theorem reaches_succ {n : Nat} {s u t : State} (h : step s = .next u) (hr : Reaches n u t) : Reaches (n + 1) s t :=
  ⟨u, h, hr⟩

theorem reaches_one {s t : State} (h : step s = .next t) : Reaches 1 s t := reaches_succ h rfl

theorem reaches_trans {n m : Nat} {s u t : State} (h : Reaches n s u) (hr : Reaches m u t) : Reaches (n + m) s t := by
  induction n generalizing s with
  | zero =>
    cases h
    simpa using hr
  | succ n ih =>
    obtain ⟨v, hv, hn⟩ := h
    rw [Nat.succ_add]
    exact reaches_succ hv (ih hn)

/-- One turn of the host's `Core.run` whose step answers a next state. -/
theorem coreRun_succ (M : Host.Core) (n : Nat) {s u : M.State} (h : M.step s = .next u) :
    M.run (n + 1) s = M.run n u := by
  simp only [Host.Core.run, h]

/-- `Reaches` follows the host's `Core.run` (Host/Core.lean). -/
theorem coreRun_of_reaches {n : Nat} {s t : State} (h : Reaches n s t) :
    Host.Core.run Sys2Proof.core n s = .next t := by
  induction n generalizing s with
  | zero =>
    cases h
    simp only [Host.Core.run]
  | succ n ih =>
    obtain ⟨u, hu, hr⟩ := h
    exact (coreRun_succ Sys2Proof.core n hu).trans (ih hr)

/-- A completion that is due is the step. -/
theorem step_of_complete {s : State} {p : Pending} (h : s.nextMove = .complete p) : step s = .next (complete p s) := by
  simp [step, h, performMove]

/-- An event that is due is the step. -/
theorem step_of_event {s : State} {e : Event} (h : s.nextMove = .event e) : step s = performEvent e s.takeEvent := by
  simp [step, h, performMove]

end Sys2Proof.Machine
end

