-- ==== Sys2Proof/Tests/Slice0.lean ====
section
/-! SUPPORT. Tests, with expected values from 95_test_vectors.md and the worked examples of the rules, and a witness for
the hypotheses of every statement of Certificates/Slice0/Obligations.lean that has some. -/

open Sys2Proof Sys2Proof.Machine Sys2Proof.Claims

namespace Sys2Proof.Tests

/-! ### Small states -/

/-- Right after INIT. -/
def active : State := { State.reset with H := H0, PHASE := .active }

/-- A computation that has ended. -/
def ended : State := { State.reset with H := H0, PHASE := .done, LEN := 24 }

/-- A pending command, with `slack` further events before its completion. -/
def pending (p : Pending) (slack : Nat) : State := { active with PEND := some p, BUSY := true, slack := slack }

/-- An error on record. -/
def failed : State := { active with ERR := true, ERRCODE := .illegal }

/-- The events the surroundings ask for. -/
def asked (es : List Event) (s : State) : State := { s with inbox := es }

/-- The state a result answers, if any. -/
def answer : Result → Option State
  | .next t => some t
  | .fault _ => none
  | .refused _ => none

/-- STATUS after a CMD write, if it is answered (V13). -/
def statusAfter (w : Word) (s : State) : Option Word := (answer (performAccess (.write 4 0x00 w) s)).map State.statusWord

/-! ### Decode and encode -/

theorem test_decode_nop : decode 0b00000000000000000000000000000000 = .ok .nop := by decide
theorem test_decode_init : decode 0b00000000000000000000000000000001 = .ok .init := by decide
theorem test_decode_block : decode 0b00000000000000000000000000000010 = .ok .block := by decide
theorem test_decode_final : decode 0b00000000000000000011100000000011 = .ok (.final 56) := by decide
theorem test_decode_clrerr : decode 0b00000000000000000000000000000100 = .ok .clrerr := by decide
/-- V13: bit 14, bit 4, NB on BLOCK, OP 5, OP 15, bit 31. -/
theorem test_decode_illegal :
    decode 0x00004003 = .error .reservedBits ∧ decode 0x00000013 = .error .reservedBits ∧
    decode 0x00000102 = .error .countNotZero ∧ decode 0x00000005 = .error .reservedOp ∧
    decode 0x0000000F = .error .reservedOp ∧ decode 0x80000001 = .error .reservedBits := by decide
theorem test_decode_table_word :
    decodeTableWord 32 0x00003F03 = some (.final 63) ∧ decodeTableWord 32 0x00000005 = none ∧
    decodeTableWord 64 0x100000001 = none := by decide

/-! ### WellFormed: a term that each check refuses -/

/-- V14: "An 8-bit write to MSG0, or a 32-bit write at offset 0x42: refused". -/
theorem test_admitted_refuses_sub_word : (Access.write 1 0x40 0x61).admitted = false := by decide
theorem test_admitted_refuses_misaligned : (Access.write 4 0x42 0).admitted = false := by decide
theorem test_admitted_refuses_wide_read : (Access.read 8 0x08).admitted = false := by decide
theorem test_admitted_refuses_misaligned_read : (Access.read 4 0x05).admitted = false := by decide
theorem test_event_admitted_refuses : (Event.bus (.read 2 0x04)).admitted = false := by decide
theorem test_admitted_accepts : (Access.read 4 0xFC).admitted = true := by decide
theorem test_step_refuses : step (asked [.bus (.write 1 0x40 0x61)] active) = .refused .accessNotAdmitted := rfl

/-! ### Tables: the derivations of R45 and R47 -/

/-- The first `n` primes are found among the numbers below 312. -/
def primes : List Nat :=
  (List.range 312).filter fun p => 2 ≤ p && (List.range 18).all fun d => d < 2 || p ≤ d || p % d != 0

/-- `k` is the first 32 bits of the fractional part of the cube root of `p`. -/
def isCubeRootFraction (k p : Nat) : Bool :=
  (List.range 8).any fun r => (2 ^ 32 * r + k) ^ 3 ≤ p * 2 ^ 96 && p * 2 ^ 96 < (2 ^ 32 * r + k + 1) ^ 3

/-- `k` is the first 32 bits of the fractional part of the square root of `p`. -/
def isSquareRootFraction (k p : Nat) : Bool :=
  (List.range 8).any fun r => (2 ^ 32 * r + k) ^ 2 ≤ p * 2 ^ 64 && p * 2 ^ 64 < (2 ^ 32 * r + k + 1) ^ 2

theorem test_K_cube_roots :
    primes.length = 64 ∧
      ((K.toList.map BitVec.toNat).zip primes).all (fun (k, p) => isCubeRootFraction k p) = true := by
  decide +kernel
theorem test_H0_square_roots :
    ((H0.toList.map BitVec.toNat).zip primes).all (fun (k, p) => isSquareRootFraction k p) = true := by
  decide +kernel

/-! ### The units (V9 to V12) -/

theorem test_sigmas :
    smallSigma0 0xFFFFFFFF = 0x1FFFFFFF ∧ smallSigma1 0xFFFFFFFF = 0x003FFFFF ∧
    bigSigma0 0x00000001 = 0x40080400 ∧ bigSigma1 0x00000001 = 0x04200080 := by decide
theorem test_choose_majority :
    choose 0xFF00FF00 0x12345678 0x9ABCDEF0 = 0x12BC56F0 ∧
    majority 0xFF00FF00 0x12345678 0x9ABCDEF0 = 0x9A34DE70 := by decide
/-- V9, NB = 3, with MSG bytes from index 3 on set. -/
theorem test_pad_abc :
    padFinal ((clearedMsg.set 0 0x616263FF).set 1 0xFFFFFFFF) 3 24 =
      [[0x61, 0x62, 0x63, 0x80] ++ List.replicate 59 0 ++ [0x18]] := by decide +kernel
/-- V9, the length across two BLOCKs: LENF = 1024 + 40. -/
theorem test_pad_length : be64 (lengthField 1024 5) = [0, 0, 0, 0, 0, 0, 0x04, 0x28] := by decide
/-- V10, the last words of the schedule of the padded "abc" block. -/
theorem test_schedule_abc :
    (expand ([0x61, 0x62, 0x63, 0x80] ++ List.replicate 59 0 ++ [0x18]))[16] = 0x61626380 ∧
    (expand ([0x61, 0x62, 0x63, 0x80] ++ List.replicate 59 0 ++ [0x18]))[63] = 0x12b1edeb := by decide +kernel
/-- V11, round 0 of the "abc" block. -/
theorem test_round_abc :
    compressRound K[0] 0x61626380 (Working.load H0) =
      ⟨0x5d6aebcd, 0x6a09e667, 0xbb67ae85, 0x3c6ef372, 0xfa2a4622, 0x510e527f, 0x9b05688c, 0x1f83d9ab⟩ := by
  decide +kernel
/-- V1. -/
theorem test_hash_empty :
    hashOf [] =
      [0xe3, 0xb0, 0xc4, 0x42, 0x98, 0xfc, 0x1c, 0x14, 0x9a, 0xfb, 0xf4, 0xc8, 0x99, 0x6f, 0xb9, 0x24,
       0x27, 0xae, 0x41, 0xe4, 0x64, 0x9b, 0x93, 0x4c, 0xa4, 0x95, 0x99, 0x1b, 0x78, 0x52, 0xb8, 0x55] := by
  decide +kernel
/-! ### Commands (V13, V15) -/

theorem test_nop : statusAfter 0x00000000 State.reset = some 0x00000000 := by decide
theorem test_nop_keeps_error : statusAfter 0x00000000 failed = some 0x0000001A := by decide
theorem test_init : statusAfter 0x00000001 State.reset = some 0x00000002 := by decide
theorem test_init_clears_errors :
    statusAfter 0x00000001 { ended with ERR := true, ERRCODE := .sequence } = some 0x00000002 := by decide
theorem test_clrerr : statusAfter 0x00000004 { failed with ERRCODE := .sequence } = some 0x00000002 := by decide
theorem test_block_sequence : statusAfter 0x00000002 State.reset = some 0x00000028 := by decide
theorem test_block_pending : statusAfter 0x00000002 failed = some 0x0000001B := by decide
theorem test_final_pending : statusAfter 0x00003F03 active = some 0x00000003 := by decide
theorem test_final_sequence : statusAfter 0x00000003 ended = some 0x0000002C := by decide
theorem test_illegal : statusAfter 0x00004003 active = some 0x0000001A := by decide
theorem test_busy_before_illegal : statusAfter 0x00000005 (pending .block 1) = some 0x0000003B := by decide
/-- V2 on the machine: FINAL 3 completes. -/
theorem test_final_abc :
    ((answer (step { pending (.final 3) 0 with MSG := clearedMsg.set 0 0x616263FF })).map State.H) =
      some #v[0xba7816bf, 0x8f01cfea, 0x414140de, 0x5dae2223, 0xb00361a3, 0x96177a9c, 0xb410ff61, 0xf20015ad] := by
  decide +kernel
/-- P2, line 19: BLOCK completes on the bytes 00 01 ... 3f. -/
theorem test_block_completion :
    ((answer (step { pending .block 0 with
        MSG := Vector.ofFn fun j => wordOf ((List.range 64).map (BitVec.ofNat 8)) j.val })).map State.H) =
      some #v[0xfc99a2df, 0x88f42a7a, 0x7bb9d180, 0x33cdc6a2, 0x0256755f, 0x9d5b9a50, 0x44a9cc31, 0x5abe84a7] := by
  decide +kernel
/-- V15: the length counter wraps. -/
theorem test_length_wraps :
    ((answer (step { pending .block 0 with LEN := 0xFFFFFFFFFFFFFE00 })).map State.LEN) = some 0 ∧
    ((answer (step { pending (.final 63) 0 with LEN := 0xFFFFFFFFFFFFFE00 })).map State.H) =
      some #v[0xfd4b187d, 0x978e53ac, 0x38a3e4ca, 0x1cdb558d, 0x9fefb1f7, 0x5ce00a7f, 0xc5f3ed69, 0x7823ab38] := by
  decide +kernel

/-! ### The window and the schedule (V14, P4) -/

theorem test_write_hash_ignored : step (asked [wr 0x80 0x12345678] active) = .next active := rfl
theorem test_message_write :
    (answer (step (asked [wr 0x4C 0x01020304] active))).map (fun t => t.MSG[3]) = some 0x01020304 := by decide
/-- P4, line 9, schedule (a): the completion comes first. -/
theorem test_schedule_completion_first :
    step (asked [wr 0x40 0xDEADBEEF] (pending .block 0)) =
      .next (complete .block (asked [wr 0x40 0xDEADBEEF] (pending .block 0))) := rfl
/-- P4, line 9, schedule (b): the write comes first and is refused with BUSY. -/
theorem test_schedule_write_first :
    (answer (step (asked [wr 0x40 0xDEADBEEF] (pending .block 1)))).map State.statusWord = some 0x0000003B := by decide
/-- A word placed at reset is the next step's command. -/
theorem test_fetch_word_runs :
    step (State.reset.withFetchWord 32 0x00000001) = exec .init State.reset ∧
    step (State.reset.withFetchWord 32 0x00000303) = exec (.final 3) State.reset := ⟨rfl, rfl⟩

/-! ### Witnesses: the hypotheses of the statements can be met -/

theorem active_inv : active.Inv := by constructor <;> simp [active, State.reset]
theorem ended_inv : ended.Inv := by constructor <;> simp [ended, State.reset]
theorem pending_inv (p : Pending) (k : Nat) : (pending p k).Inv := by
  constructor <;> simp [pending, active, State.reset]
theorem asked_inv {s : State} (h : s.Inv) (es : List Event) : (asked es s).Inv :=
  ⟨h.busy_pend, h.err_code, h.pend_active, h.idle_fresh, h.active_len, h.len_bytes⟩

theorem witness_IllegalWordRaisesIllegal :
    IllegalWord 0x00000005 ∧ IllegalWord 0x0000000F ∧ IllegalWord 0x00000013 ∧ IllegalWord 0x00004003 ∧
      IllegalWord 0x80000001 ∧ IllegalWord 0x00000102 ∧ IllegalWord 0x00003F04 := by
  simp [IllegalWord]
theorem witness_StepRunsTheWrittenCommand :
    decode 0x00003F03 = .ok (.final 63) ∧
      (asked [cmdWrite 0x00003F03] active).nextMove = .event (cmdWrite 0x00003F03) := by decide
theorem witness_StepFollowsTheSchedule :
    ((pending .block 0).PEND = some .block ∧ (pending .block 0).slack = 0) ∧
    ((pending .block 5).PEND = some .block ∧ (pending .block 5).inbox = []) ∧
    ((asked [.wait] (pending .block 1)).PEND = some .block ∧ (asked [.wait] (pending .block 1)).inbox = [.wait] ∧
      0 < (asked [.wait] (pending .block 1)).slack) ∧
    ((asked [.wait] active).PEND = none ∧ (asked [.wait] active).inbox = [.wait]) ∧
    (active.PEND = none ∧ active.inbox = []) := by decide
theorem witness_OnlyNonAdmittedAccessesAreRefused :
    (asked [.bus (.read 4 0x42)] active).nextMove = .event (.bus (.read 4 0x42)) ∧
    (asked [.bus (.write 8 0x40 0)] active).nextMove = .event (.bus (.write 8 0x40 0)) := by decide
theorem witness_FirstErrorIsRecorded : active.ERR = false ∧ failed.ERR = true := by decide
theorem witness_RecordedErrorIsSticky :
    (∃ t, step (asked [rd 0x04] failed) = .next t) ∧ (asked [rd 0x04] failed).ERR = true ∧
      ¬ TakesCommand (asked [rd 0x04] failed) .init ∧ ¬ TakesCommand (asked [rd 0x04] failed) .clrerr ∧
      ¬ IsReset (asked [rd 0x04] failed) := by
  have h : (asked [rd 0x04] failed).nextMove = .event (rd 0x04) := by decide
  refine ⟨⟨_, rfl⟩, rfl, ?_, ?_, ?_⟩
  · rintro ⟨_, w, hw, _⟩
    rw [h] at hw
    cases hw
  · rintro ⟨_, w, hw, _⟩
    rw [h] at hw
    cases hw
  · unfold IsReset
    rw [h]
    decide
/-- Each clause at the ends of its range: MSG0 and MSG15, offsets 0x00 and 0xFC, 0x04, 0x3C, 0x80 and 0xFC. -/
theorem witness_BusyRefusesCommandAndMessageWrites :
    (pending .block 1).BUSY = true ∧
    ((0x00 : BitVec 8).toNat % 4 = 0 ∧ (0xFC : BitVec 8).toNat % 4 = 0) ∧
    ∀ o ∈ ([0x04, 0x3C, 0x80, 0xFC] : List (BitVec 8)),
      o.toNat % 4 = 0 ∧ o.toNat ≠ 0 ∧ (o.toNat < 0x40 ∨ 0x80 ≤ o.toNat) := by decide
theorem witness_ErrorCausesHavePriority : active.ERR = false ∧ active.ERRCODE = .none := by decide
theorem witness_SequenceErrorDiscardsTheCommand :
    State.reset.BUSY = false ∧ State.reset.PHASE ≠ .active ∧ ended.BUSY = false ∧ ended.PHASE ≠ .active := by decide
/-- NOP, INIT, BLOCK, FINAL and CLRERR: a state with BUSY = 0 in each phase, one with BUSY = 1, and an INIT that is
answered. -/
theorem witness_CommandsComplete :
    State.reset.BUSY = false ∧ active.BUSY = false ∧ active.PHASE = .active ∧ ended.BUSY = false ∧
      ended.PHASE ≠ .active ∧ (pending .block 1).BUSY = true ∧ active.ERR = false ∧ active.ERRCODE = .none ∧
      ∃ t, exec .init active = .next t := ⟨rfl, rfl, rfl, rfl, by decide, rfl, rfl, rfl, _, rfl⟩
theorem witness_BlockCompletionCompresses : (pending .block 0).nextMove = .complete .block := by decide
theorem witness_FinalCompletionPadsAndCompresses :
    (pending (.final 0) 0).nextMove = .complete (.final 0) ∧
      (pending (.final 63) 7).nextMove = .complete (.final 63) := by decide
theorem witness_RunsFromIssueToCompletion :
    active.BUSY = false ∧ active.PHASE = .active ∧ active.inbox = [] ∧
      (55 : BitVec 6).toNat ≤ 55 ∧ 56 ≤ (56 : BitVec 6).toNat := by decide
theorem witness_CommandIssueFrame : exec .nop failed = .next failed ∧ failed.ERR = true := ⟨rfl, rfl⟩
theorem witness_MessageRegistersReadAndWrite : (pending .block 1).BUSY = true ∧ active.BUSY = false := by decide
theorem witness_ReservedOffsetsReadZeroAndIgnoreWrites :
    ∀ o ∈ ([0x10, 0x3C, 0xA0, 0xFC] : List (BitVec 8)),
      o.toNat % 4 = 0 ∧ (0x10 ≤ o.toNat ∧ o.toNat ≤ 0x3C ∨ 0xA0 ≤ o.toNat) := by decide
theorem witness_HashRegistersRead : active.BUSY = false := rfl
theorem witness_ReadsHaveNoSideEffect : (0x7C : BitVec 8).toNat % 4 = 0 := by decide
theorem witness_AddressesAreRelativeToBase : Config.base < Config.base ∨ Config.base + 256 ≤ Config.base + 256 :=
  .inr (Nat.le_refl _)
theorem witness_HashStateWriters :
    ∃ t, step (asked [command .init] State.reset) = .next t ∧ t.H ≠ (asked [command .init] State.reset).H :=
  ⟨_, rfl, by decide⟩
/-- A host write of MSG15, the clearing INIT, and a step that leaves MSG alone. -/
theorem witness_MessageBufferWriters :
    (∃ t, step (asked [wr 0x7C 1] active) = .next t) ∧ WritesMessage (asked [wr 0x7C 1] active) 15 1 ∧
      (∃ t, step (asked [command .init] active) = .next t) ∧ TakesCommand (asked [command .init] active) .init ∧
      ∃ t, step (pending .block 0) = .next t :=
  ⟨⟨_, rfl⟩, ⟨rfl, by decide⟩, ⟨_, rfl⟩, ⟨rfl, 1, by decide, by decide⟩, _, rfl⟩
theorem witness_StepAnswers :
    (∃ t, step (asked [command .init] ended) = .next t) ∧ (∃ t, step (pending .block 0) = .next t) ∧
      (∃ t, step (asked [.reset] active) = .next t) ∧ step active = .next active :=
  ⟨⟨_, rfl⟩, ⟨_, rfl⟩, ⟨_, rfl⟩, rfl⟩
theorem witness_OnlyCommandsStartActivity :
    ∃ t, step (asked [command .block] active) = .next t ∧ (asked [command .block] active).PEND = none ∧ t.PEND ≠ none :=
  ⟨_, rfl, rfl, by decide⟩
theorem witness_PendingCommandIsUndisturbed :
    (asked [rd 0x80] (pending .block 1)).BUSY = true ∧
      (∃ e, (asked [rd 0x80] (pending .block 1)).nextMove = .event e ∧ e ≠ .reset) ∧
      ∃ t, step (asked [rd 0x80] (pending .block 1)) = .next t :=
  ⟨rfl, ⟨_, rfl, by decide⟩, _, rfl⟩
theorem witness_DigestStaysUntilInitOrReset :
    (asked [command .block] ended).Inv ∧ (asked [command .block] ended).Ended ∧
      (∃ t, step (asked [command .block] ended) = .next t) ∧
      ¬ TakesCommand (asked [command .block] ended) .init ∧ ¬ IsReset (asked [command .block] ended) := by
  have h : (asked [command .block] ended).nextMove = .event (cmdWrite 2) := by decide
  refine ⟨asked_inv ended_inv _, ⟨rfl, rfl⟩, ⟨_, rfl⟩, ?_, ?_⟩
  · rintro ⟨_, w, hw, hd⟩
    rw [h] at hw
    cases hw
    exact absurd hd (by decide)
  · simp [IsReset, h, cmdWrite]
theorem witness_HiddenRegistersAreNeverObserved :
    EqualButHidden active { active with RND := 64, W := Vector.replicate 64 7 } := rfl
theorem witness_ResetAbandonsThePendingCommand : IsReset (asked [.reset] (pending .block 1)) := by
  unfold IsReset
  decide
theorem witness_EveryStepKeepsTheInvariant :
    (pending (.final 63) 0).Inv ∧ ∃ t, step (pending (.final 63) 0) = .next t := ⟨pending_inv _ _, _, rfl⟩
theorem witness_PendingCommandCompletes :
    (asked [.wait, rd 0x80] (pending .block 1)).Inv ∧ (asked [.wait, rd 0x80] (pending .block 1)).Admitted ∧
      (asked [.wait, rd 0x80] (pending .block 1)).PEND = some .block ∧
      .reset ∉ (asked [.wait, rd 0x80] (pending .block 1)).inbox :=
  ⟨asked_inv (pending_inv _ _) _, by unfold State.Admitted; decide, rfl, by decide⟩
theorem witness_WaitEnds :
    (asked [.wait] (pending .block 3)).Inv ∧ (asked [.wait] (pending .block 3)).inbox = .wait :: [] :=
  ⟨asked_inv (pending_inv _ _) _, rfl⟩
/-- P4, line 9. -/
theorem witness_ResultDoesNotDependOnTheSchedule :
    (pending .block 0).Inv ∧ (pending .block 0).PEND = some .block ∧
      ∀ e ∈ [wr 0x40 0xDEADBEEF, .wait], e.admitted = true ∧ e ≠ .reset ∧ ∀ w, e ≠ cmdWrite w := by
  refine ⟨pending_inv _ _, rfl, ?_⟩
  simp [wr, cmdWrite, Event.admitted, Access.admitted]
theorem witness_DigestReadSeriesIsConsistent :
    (asked (readHash ++ []) ended).inbox = readHash ++ [] ∧ (asked readHash ended).PEND = none ∧
      8 ≤ (pending .block 8).slack := ⟨rfl, rfl, by decide⟩
theorem witness_ShiftAndRotateBits : (0 < 1 ∧ 1 < 32) ∧ (0 < 31 ∧ 31 < 32) ∧ 0 < 32 := by decide
/-- The first and the last line of the table of R45. -/
theorem witness_RoundLoopRunsSixtyFourRounds :
    (0, [0x428a2f98, 0xe49b69c1, 0x27b70a85, 0x19a4c116]) ∈ printedK ∧
      (15, [0xc19bf174, 0x14292967, 0x106aa070, 0xc67178f2]) ∈ printedK ∧ 64 ≤ 64 := by decide
theorem witness_PaddingCounts :
    (0 : BitVec 6).toNat ≤ 55 ∧ (55 : BitVec 6).toNat ≤ 55 ∧ 56 ≤ (56 : BitVec 6).toNat ∧ 56 ≤ (63 : BitVec 6).toNat := by
  decide
theorem witness_PaddingIgnoresBytesFromTheCountOn :
    ∀ k : Fin 64, k.val < (3 : BitVec 6).toNat →
      wordByte (clearedMsg.set 0 0x61626300)[k.val / 4] (k.val % 4) =
        wordByte (clearedMsg.set 0 0x616263FF)[k.val / 4] (k.val % 4) := by decide +kernel
theorem witness_StreamingPaddingIsSourcePadding : ∀ B ∈ [List.replicate 64 (0x61 : Byte)], B.length = 64 := by decide
/-- The message "abc", with a read of STATUS and an ignored write in between. -/
theorem witness_InterfaceComputesTheHash :
    (asked (rd 0x04 :: hashSequence [0x61, 0x62, 0x63] [0xFF] ++ [wr 0x80 0]) ended).BUSY = false ∧
      (asked (rd 0x04 :: hashSequence [0x61, 0x62, 0x63] [0xFF] ++ [wr 0x80 0]) ended).PEND = none ∧
      (rd 0x04 :: hashSequence [0x61, 0x62, 0x63] [0xFF] ++ [wr 0x80 0]).filter (fun e => !bystander e) =
        hashSequence [0x61, 0x62, 0x63] [0xFF] := by decide +kernel

end Sys2Proof.Tests
end

section
/-! The shift and rotation operators of 00_scope.md R10, and the place of the register window in the platform's
address space (00_scope.md R12; 20_memory.md R64). -/

namespace Sys2Proof.Machine

/-! ### Shift and rotation -/

theorem toNat_shr (x : Word) (n : Nat) : (shr x n).toNat = x.toNat / 2 ^ n := by
  rw [shr, BitVec.toNat_ushiftRight, Nat.shiftRight_eq_div_pow]

/-- R10's formula is the library's rotation, for the counts it is given for. -/
theorem rotr_eq_rotateRight (x : Word) {n : Nat} (hn : n < 32) : rotr x n = x.rotateRight n := by
  rw [BitVec.rotateRight_eq_rotateRightAux_of_lt hn]
  rfl

theorem getLsbD_rotr (x : Word) {n i : Nat} (hn : n < 32) (hi : i < 32) :
    (rotr x n).getLsbD i = x.getLsbD ((i + n) % 32) := by
  rw [rotr_eq_rotateRight x hn, BitVec.getLsbD_rotateRight, Nat.mod_eq_of_lt hn]
  by_cases hlow : i < 32 - n
  · -- the bit comes from n places higher
    have hsrc : (i + n) % 32 = n + i := by omega
    simp [hlow, hsrc]
  · -- the bit wraps around from the low end
    have hsrc : (i + n) % 32 = i - (32 - n) := by omega
    simp [hlow, hi, hsrc]

/-- Settles O47: the shift is a division, and the rotation is read bit by bit. -/
theorem shiftAndRotateBits : Obligations.ShiftAndRotateBits := by
  intro x n _ hn
  exact ⟨toNat_shr x n, fun i hi => getLsbD_rotr x hn hi⟩

/-! ### The window -/

theorem base_mod_256 : Config.base % 256 = 0 := Nat.mul_mod_right 256 Config.baseIndex

/-- An address of the window has its own offset. -/
theorem windowOffset_base_add (o : BitVec 8) : windowOffset (Config.base + o.toNat) = some o := by
  have hin : Config.base ≤ Config.base + o.toNat ∧ Config.base + o.toNat < Config.base + 256 :=
    ⟨Nat.le_add_right _ _, Nat.add_lt_add_left o.isLt _⟩
  rw [windowOffset, if_pos hin, Nat.add_sub_cancel_left, BitVec.ofNat_toNat, BitVec.setWidth_eq]

theorem windowOffset_eq_none {addr : Nat} (h : addr < Config.base ∨ Config.base + 256 ≤ addr) :
    windowOffset addr = none := by
  rw [windowOffset, if_neg (by omega)]

/-- Settles O30: both kinds of access follow the offset of their address in the window. -/
theorem addressesAreRelativeToBase : Obligations.AddressesAreRelativeToBase := by
  refine ⟨base_mod_256, fun o n v => ?_, fun addr n v hout => ?_⟩
  · simp [memRead, memWrite, windowOffset_base_add]
  · simp [memRead, memWrite, windowOffset_eq_none hout]

end Sys2Proof.Machine
end

section
/-! What a..h, W and RND hold reaches nothing else (10_state.md R24, R26; 60_exceptions.md R263). Every operation of
the machine carries states that differ at most there to states that differ at most there, and whose turn it is
does not depend on them. -/

namespace Sys2Proof.Claims

open Sys2Proof.Machine

/-- Any a..h, W and RND in the place of those of `s`. -/
def withHidden (r : Working) (V : Vector Word 64) (n : Fin 65) (s : State) : State :=
  { s with work := r, W := V, RND := n }

theorem equalButHidden_iff_withHidden {s t : State} :
    EqualButHidden s t ↔ ∃ r V n, t = withHidden r V n s := by
  constructor
  · exact fun h => ⟨t.work, t.W, t.RND, h⟩
  · rintro ⟨r, V, n, rfl⟩
    rfl

/-- An operation whose result depends on a..h, W and RND at most in a..h, W and RND. -/
def IgnoresHidden (f : State → State) : Prop :=
  ∀ ⦃s t : State⦄, EqualButHidden s t → EqualButHidden (f s) (f t)

/-- An operation that neither reads nor writes the hidden registers ignores them. -/
theorem IgnoresHidden.of_commutes {f : State → State}
    (h : ∀ r V n s, f (withHidden r V n s) = withHidden r V n (f s)) : IgnoresHidden f := by
  intro s t hst
  obtain ⟨r, V, n, rfl⟩ := equalButHidden_iff_withHidden.1 hst
  exact equalButHidden_iff_withHidden.2 ⟨r, V, n, h r V n s⟩

/-- A choice by what the hidden registers do not touch ignores them when both branches do. -/
theorem IgnoresHidden.ite {c : State → Prop} [DecidablePred c] {f g : State → State}
    (hc : ∀ r V n s, c (withHidden r V n s) ↔ c s) (hf : IgnoresHidden f) (hg : IgnoresHidden g) :
    IgnoresHidden fun s => if c s then f s else g s := by
  intro s t h
  have hct : c t ↔ c s := by
    obtain ⟨r, V, n, rfl⟩ := equalButHidden_iff_withHidden.1 h
    exact hc r V n s
  by_cases hs : c s
  · simpa [hct, hs] using hf h
  · simpa [hct, hs] using hg h

/-! ### The operations on the state -/

theorem takeEvent_ignoresHidden : IgnoresHidden State.takeEvent := .of_commutes fun _ _ _ _ => rfl

theorem raiseError_ignoresHidden (code : ErrCode) : IgnoresHidden (State.raiseError code) :=
  .of_commutes fun _ _ _ _ => rfl

theorem issueInActive_ignoresHidden (p : Pending) : IgnoresHidden (State.issueInActive p) :=
  .ite (c := fun s => s.PHASE = .active) (fun _ _ _ _ => .rfl) (.of_commutes fun _ _ _ _ => rfl)
    (raiseError_ignoresHidden .sequence)

theorem writeMsg_ignoresHidden (j : Fin 16) (v : Word) : IgnoresHidden (State.writeMsg j v) :=
  .ite (c := fun s => s.BUSY = true) (fun _ _ _ _ => .rfl) (raiseError_ignoresHidden .busy)
    (.of_commutes fun _ _ _ _ => rfl)

theorem readReg_withHidden (r : Working) (V : Vector Word 64) (n : Fin 65) (s : State) (reg : Reg) :
    (withHidden r V n s).readReg reg = s.readReg reg := by
  cases reg <;> rfl

theorem respond_readReg_ignoresHidden (reg : Reg) : IgnoresHidden fun s => s.respond (s.readReg reg) :=
  .of_commutes fun r V n s => by rw [readReg_withHidden]; rfl

theorem waitTurn_ignoresHidden : IgnoresHidden waitTurn :=
  .of_commutes fun r V n s => by rw [waitTurn_eq, waitTurn_eq]; rfl

theorem commandEffect_ignoresHidden (i : Instr) : IgnoresHidden (commandEffect i) := by
  cases i with
  | nop => exact fun _ _ h => h
  | init => exact .of_commutes fun _ _ _ _ => rfl
  | block => exact issueInActive_ignoresHidden .block
  | final nb => exact issueInActive_ignoresHidden (.final nb)
  | clrerr => exact .of_commutes fun _ _ _ _ => rfl

/-- A reset overwrites the hidden registers too. -/
theorem platformReset_ignoresHidden : IgnoresHidden State.platformReset := by
  intro s t h
  obtain ⟨r, V, n, rfl⟩ := equalButHidden_iff_withHidden.1 h
  rfl

/-- A completion writes the hidden registers, but what it writes elsewhere comes from H, MSG and LEN alone: the
schedule does not depend on what W held (41_schedule.md R135). -/
theorem complete_ignoresHidden (p : Pending) : IgnoresHidden (complete p) := by
  intro s t h
  obtain ⟨r, V, n, rfl⟩ := equalButHidden_iff_withHidden.1 h
  refine (complete_eq p _).trans ?_
  rw [complete_eq p s]
  rfl

/-! ### The accesses and the step -/

/-- An operation that answers alike on states that differ at most in the hidden registers. -/
def AnswersAlike (f : State → Result) : Prop :=
  ∀ ⦃s t : State⦄, EqualButHidden s t → AnswersEqualButHidden (f s) (f t)

theorem IgnoresHidden.answersAlike {f : State → State} (hf : IgnoresHidden f) : AnswersAlike fun s => .next (f s) :=
  fun _ _ h => hf h

theorem issueCmd_answersAlike (v : Word) : AnswersAlike (issueCmd v) := by
  rw [funext (issueCmd_eq v)]
  refine (IgnoresHidden.ite (c := fun s => s.BUSY = true) (fun _ _ _ _ => .rfl) (raiseError_ignoresHidden .busy)
    ?_).answersAlike
  cases decode v with
  | error e => exact raiseError_ignoresHidden .illegal
  | ok i => exact commandEffect_ignoresHidden i

theorem writeReg_answersAlike (reg : Reg) (v : Word) : AnswersAlike (writeReg reg v) := by
  have ignored : AnswersAlike fun s => .next s := fun _ _ h => h
  cases reg with
  | cmd => exact issueCmd_answersAlike v
  | msg j => exact (writeMsg_ignoresHidden j v).answersAlike
  | status => exact ignored
  | lenLo => exact ignored
  | lenHi => exact ignored
  | hash i => exact ignored
  | reserved => exact ignored

/-- An access that is not admitted is refused for the same reason in every state (20_memory.md R63). -/
theorem performAccess_answersAlike (a : Access) : AnswersAlike (performAccess a) := by
  intro s t h
  unfold performAccess
  by_cases hadm : a.admitted = true
  · rw [if_pos hadm, if_pos hadm]
    cases a with
    | read size o => exact (respond_readReg_ignoresHidden (regAt o)).answersAlike h
    | write size o v => exact writeReg_answersAlike (regAt o) v h
  · rw [if_neg hadm, if_neg hadm]
    rfl

theorem performEvent_answersAlike (e : Event) : AnswersAlike (performEvent e) := by
  cases e with
  | bus a => exact performAccess_answersAlike a
  | wait => exact waitTurn_ignoresHidden.answersAlike
  | reset => exact platformReset_ignoresHidden.answersAlike

theorem performMove_answersAlike (m : Move) : AnswersAlike (performMove m) := by
  cases m with
  | complete p => exact (complete_ignoresHidden p).answersAlike
  | event e => exact fun _ _ h => performEvent_answersAlike e (takeEvent_ignoresHidden h)
  | idle => exact fun _ _ h => h

/-- Whose turn it is does not depend on the hidden registers. -/
theorem nextMove_eq_of_equalButHidden {s t : State} (h : EqualButHidden s t) : t.nextMove = s.nextMove := by
  obtain ⟨r, V, n, rfl⟩ := equalButHidden_iff_withHidden.1 h
  rfl

/-- Settles O38: the same agent moves, and its move answers alike. -/
theorem hiddenRegistersAreNeverObserved : Obligations.HiddenRegistersAreNeverObserved := by
  intro s t h
  unfold step
  rw [nextMove_eq_of_equalButHidden h]
  exact performMove_answersAlike s.nextMove h

end Sys2Proof.Claims
end

section
/-! The engine's invariant (10_state.md R35, R36; 70_reset_and_hazards.md R282) holds at reset, and each operation of
the machine keeps it. -/

namespace Sys2Proof.Machine

/-! ### LEN after a completion, as a number (10_state.md R32, R33) -/

theorem completedLen_block_toNat (LEN : Len) : (completedLen LEN .block).toNat = (LEN.toNat + 512) % 2 ^ 64 :=
  BitVec.toNat_add LEN 512

theorem completedLen_final_toNat (LEN : Len) (nb : BitVec 6) :
    (completedLen LEN (.final nb)).toNat = (LEN.toNat + 8 * nb.toNat) % 2 ^ 64 :=
  lengthField_toNat LEN nb

/-! ### One rule per operation -/

/-- Settles O41: at reset nothing is pending, no error is recorded, and H and LEN are 0. -/
theorem invariantHoldsAtReset : Obligations.InvariantHoldsAtReset := by
  constructor <;> simp [State.reset]

namespace State.Inv

variable {s : State}

/-- The invariant says nothing of MSG, the hidden registers and the surroundings. -/
theorem of_unconstrained (h : s.Inv) (r : Working) (V : Vector Word 64) (n : Fin 65) (M : Vector Word 16)
    (es : List Event) (vs : List Word) (k d : Nat) :
    State.Inv { s with work := r, W := V, RND := n, MSG := M, inbox := es, outbox := vs, slack := k, ticks := d } :=
  ⟨h.busy_pend, h.err_code, h.pend_active, h.idle_fresh, h.active_len, h.len_bytes⟩

theorem takeEvent (h : s.Inv) : s.takeEvent.Inv := h.of_unconstrained ..

theorem respond (v : Word) (h : s.Inv) : (s.respond v).Inv := h.of_unconstrained ..

theorem waitTurn (h : s.Inv) : (waitTurn s).Inv := by
  rw [waitTurn_eq]
  exact h.of_unconstrained ..

/-- A recorded error has a code, also when it was recorded before (60_exceptions.md R250). -/
theorem raiseError {code : ErrCode} (hcode : code ≠ .none) (h : s.Inv) : (s.raiseError code).Inv where
  busy_pend := h.busy_pend
  err_code := by
    have hrec : s.ERR = true → s.ERRCODE ≠ .none := fun he hn => by simp [h.err_code.2 hn] at he
    by_cases he : s.ERR = true <;> simp [he, hrec, hcode]
  pend_active := h.pend_active
  idle_fresh := h.idle_fresh
  active_len := h.active_len
  len_bytes := h.len_bytes

theorem writeMsg (j : Fin 16) (v : Word) (h : s.Inv) : (s.writeMsg j v).Inv := by
  unfold State.writeMsg
  split
  · exact h.raiseError (by decide)
  · exact h.of_unconstrained ..

theorem clearError (h : s.Inv) : s.clearError.Inv where
  busy_pend := h.busy_pend
  err_code := by simp
  pend_active := h.pend_active
  idle_fresh := h.idle_fresh
  active_len := h.active_len
  len_bytes := h.len_bytes

theorem startComputation (h : s.Inv) : s.startComputation.Inv where
  busy_pend := h.busy_pend
  err_code := by simp
  pend_active := by simp
  idle_fresh := by simp
  active_len := by simp
  len_bytes := by simp

/-- The slot is filled only in ACTIVE (44_commands.md R201). -/
theorem setPending (p : Pending) (hp : s.PHASE = .active) (h : s.Inv) : (s.setPending p).Inv where
  busy_pend := by simp
  err_code := h.err_code
  pend_active := fun _ => hp
  idle_fresh := h.idle_fresh
  active_len := h.active_len
  len_bytes := h.len_bytes

theorem issueInActive (p : Pending) (h : s.Inv) : (s.issueInActive p).Inv := by
  rcases s.issueInActive_cases p with ⟨hp, heq⟩ | ⟨-, heq⟩ <;> rw [heq]
  · exact h.setPending p hp
  · exact h.raiseError (by decide)

theorem commandEffect (i : Instr) (h : s.Inv) : (commandEffect i s).Inv := by
  cases i with
  | nop => exact h
  | init => exact h.startComputation
  | block => exact h.issueInActive .block
  | final nb => exact h.issueInActive (.final nb)
  | clrerr => exact h.clearError

theorem platformReset : s.platformReset.Inv := invariantHoldsAtReset.of_unconstrained ..

/-- A completion stays in ACTIVE with LEN grown by a whole block, or ends in DONE with LEN grown by whole bytes. -/
theorem complete {p : Pending} (hp : s.PEND = some p) (h : s.Inv) : (complete p s).Inv := by
  have hphase : s.PHASE = .active := h.pend_active (by simp [hp])
  have hlen : s.LEN.toNat % 512 = 0 := h.active_len hphase
  refine ⟨by simp, by simpa using h.err_code, by simp, ?idle_fresh, ?active_len, ?len_bytes⟩
  case idle_fresh => cases p <;> simp [completedPhase, hphase]
  case active_len =>
    cases p with
    | block =>
      rw [complete_LEN, completedLen_block_toNat]
      omega
    | final nb => simp [completedPhase]
  case len_bytes =>
    cases p with
    | block =>
      rw [complete_LEN, completedLen_block_toNat]
      omega
    | final nb =>
      rw [complete_LEN, completedLen_final_toNat]
      omega

end State.Inv

/-! ### The step -/

/-- Settles O42, case by case of what a step can do. -/
theorem everyStepKeepsTheInvariant : Obligations.EveryStepKeepsTheInvariant := by
  intro s t h hst
  cases step_cases hst with
  | completion p hm ht => exact ht ▸ h.complete (State.nextMove_complete hm).1
  | idle hm ht => exact ht ▸ h
  | reset hm ht => exact ht ▸ State.Inv.platformReset
  | wait hm ht => exact ht ▸ h.takeEvent.waitTurn
  | read o ha hm ht => exact ht ▸ h.takeEvent.respond _
  | ignored o v ha hc hj hm ht => exact ht ▸ h.takeEvent
  | message j v hm ht => exact ht ▸ h.takeEvent.writeMsg j v
  | busy w hm hb ht => exact ht ▸ h.takeEvent.raiseError (by decide)
  | illegal w e hm hb hd ht => exact ht ▸ h.takeEvent.raiseError (by decide)
  | command w i hm hb hd ht => exact ht ▸ h.takeEvent.commandEffect i

end Sys2Proof.Machine
end

section
/-! Who changes H, LEN, MSG and PHASE, and to what (10_state.md R20, R30, R32, R37), what a recorded error survives
(10_state.md R38, R39), and what a pending command is safe from (44_commands.md R222, R226). -/

namespace Sys2Proof.Machine

/-! ### Operations, each on its own -/

theorem State.writeMsg_of_busy (j : Fin 16) (v : Word) {s : State} (h : s.BUSY = true) :
    s.writeMsg j v = s.raiseError .busy := if_pos h

theorem State.writeMsg_of_not_busy (j : Fin 16) (v : Word) {s : State} (h : s.BUSY = false) :
    s.writeMsg j v = { s with MSG := s.MSG.set j v } := by
  simp [State.writeMsg, h]

/-- The first error wins (60_exceptions.md R250). -/
theorem State.raiseError_ERRCODE_of_err (code : ErrCode) {s : State} (h : s.ERR = true) :
    (s.raiseError code).ERRCODE = s.ERRCODE := by
  simp [h]

theorem msgOffset_aligned (j : Fin 16) : (BitVec.ofNat 8 (0x40 + 4 * j.val)).toNat % 4 = 0 := by
  revert j; decide

end Sys2Proof.Machine

namespace Sys2Proof.Claims

open Sys2Proof.Machine

variable {s t : State}

/-! ### The writers, each on its own -/

theorem TakesCommand.eq_of_step {i : Instr} (h : TakesCommand s i) (hst : step s = .next t) :
    t = commandEffect i s.takeEvent := by
  obtain ⟨hb, w, hm, hd⟩ := h
  have hstep : step s = .next (commandEffect i s.takeEvent) := by
    rw [step_of_event hm]
    exact (issueCmd_eq w s.takeEvent).trans (by simp [hb, hd])
  exact Host.Outcome.next.inj (hst.symm.trans hstep)

theorem IsReset.eq_of_step (h : IsReset s) (hst : step s = .next t) : t = s.takeEvent.platformReset :=
  Host.Outcome.next.inj (hst.symm.trans (step_of_event h))

theorem eq_complete_of_step {p : Pending} (h : s.nextMove = .complete p) (hst : step s = .next t) : t = complete p s :=
  Host.Outcome.next.inj (hst.symm.trans (step_of_complete h))

theorem WritesMessage.eq_of_step {j : Fin 16} {v : Word} (h : WritesMessage s j v) (hst : step s = .next t) :
    t = { s.takeEvent with MSG := s.MSG.set j v } := by
  obtain ⟨hb, hm⟩ := h
  have hstep : step s = .next (s.takeEvent.writeMsg j v) := by
    rw [step_of_event hm]
    exact (performAccess_write _ v _ (msgOffset_aligned j)).trans (by rw [regAt_msg]; rfl)
  rw [Host.Outcome.next.inj (hst.symm.trans hstep), State.writeMsg_of_not_busy j v (s := s.takeEvent) hb]
  rfl

/-! ### Every step, by what it writes of H, LEN, MSG and PHASE -/

/-- The steps that write H, LEN, MSG or PHASE, and all the others. -/
inductive RegisterStep (s t : State) : Prop where
  | init (h : TakesCommand s .init) (ht : t = s.takeEvent.startComputation)
  | completion (p : Pending) (h : s.nextMove = .complete p) (ht : t = complete p s)
  | reset (h : IsReset s) (ht : t = s.takeEvent.platformReset)
  | message (j : Fin 16) (v : Word) (h : WritesMessage s j v) (ht : t = { s.takeEvent with MSG := s.MSG.set j v })
  | other (h : SameRegisters s t)

theorem commandEffect_sameRegisters {i : Instr} (hi : i ≠ .init) (s : State) :
    SameRegisters s (commandEffect i s) := by
  have issue (p : Pending) : SameRegisters s (s.issueInActive p) := by
    obtain ⟨hH, hLEN, hMSG, hPHASE, -⟩ := s.issueInActive_frame p
    exact ⟨hH, hLEN, hMSG, hPHASE⟩
  cases i with
  | nop => exact ⟨rfl, rfl, rfl, rfl⟩
  | init => exact absurd rfl hi
  | block => exact issue .block
  | final nb => exact issue (.final nb)
  | clrerr => exact ⟨rfl, rfl, rfl, rfl⟩

theorem registerStep_of_step (hst : step s = .next t) : RegisterStep s t := by
  cases step_cases hst with
  | completion p hm ht => exact .completion p hm ht
  | idle hm ht => exact .other (ht ▸ ⟨rfl, rfl, rfl, rfl⟩)
  | reset hm ht => exact .reset hm ht
  | wait hm ht => exact .other (by rw [ht, waitTurn_eq]; exact ⟨rfl, rfl, rfl, rfl⟩)
  | read o ha hm ht => exact .other (ht ▸ ⟨rfl, rfl, rfl, rfl⟩)
  | ignored o v ha hc hj hm ht => exact .other (ht ▸ ⟨rfl, rfl, rfl, rfl⟩)
  | message j v hm ht =>
    cases hb : s.BUSY with
    | true =>
      rw [State.writeMsg_of_busy j v (s := s.takeEvent) hb] at ht
      exact .other (ht ▸ ⟨rfl, rfl, rfl, rfl⟩)
    | false => exact .message j v ⟨hb, hm⟩ (WritesMessage.eq_of_step ⟨hb, hm⟩ hst)
  | busy w hm hb ht => exact .other (ht ▸ ⟨rfl, rfl, rfl, rfl⟩)
  | illegal w e hm hb hd ht => exact .other (ht ▸ ⟨rfl, rfl, rfl, rfl⟩)
  | command w i hm hb hd ht =>
    by_cases hi : i = .init
    · subst hi
      exact .init ⟨hb, w, hm, hd⟩ ht
    · exact .other (ht ▸ commandEffect_sameRegisters hi s.takeEvent)

end Sys2Proof.Claims

namespace Sys2Proof.Machine

open Sys2Proof.Claims

/-- Settles O31: a host write of MSG and the steps that write no register keep H. -/
theorem hashStateWriters : Obligations.HashStateWriters := by
  intro s t hst hne
  cases registerStep_of_step hst with
  | init h ht => exact .inl h
  | completion p h ht => exact .inr (.inl ⟨p, h⟩)
  | reset h ht => exact .inr (.inr h)
  | message j v h ht => exact absurd (congrArg State.H ht) hne
  | other h =>
    obtain ⟨hH, -⟩ := h
    exact absurd hH hne

/-- Settles O32: with none of the writers at work, what is left of the steps keeps MSG. -/
theorem messageBufferWriters : Obligations.MessageBufferWriters := by
  intro s t hst
  by_cases hwrite : ∃ j v, WritesMessage s j v
  · obtain ⟨j, v, h⟩ := hwrite
    exact .inl ⟨j, v, h, congrArg State.MSG (h.eq_of_step hst)⟩
  by_cases hclear : TakesCommand s .init ∨ (∃ nb, s.nextMove = .complete (.final nb)) ∨ IsReset s
  · refine .inr (.inl ⟨hclear, ?_⟩)
    rcases hclear with h | ⟨nb, h⟩ | h
    · exact congrArg State.MSG (h.eq_of_step hst)
    · rw [eq_complete_of_step h hst, complete_MSG]
      rfl
    · exact congrArg State.MSG (h.eq_of_step hst)
  · simp only [not_or, not_exists] at hwrite hclear
    obtain ⟨hinit, hfinal, hreset⟩ := hclear
    refine .inr (.inr ⟨?_, hwrite, hinit, hfinal, hreset⟩)
    cases registerStep_of_step hst with
    | init h ht => exact absurd h hinit
    | completion p h ht =>
      cases p with
      | block => rw [ht, complete_MSG, completedMsg]
      | final nb => exact absurd h (hfinal nb)
    | reset h ht => exact absurd h hreset
    | message j v h ht => exact absurd h (hwrite j v)
    | other h =>
      obtain ⟨-, -, hMSG, -⟩ := h
      exact hMSG

/-- Settles O33: each writer of H, LEN, MSG or PHASE with its LEN, and all other steps keep it. -/
theorem lengthCounterWriters : Obligations.LengthCounterWriters := by
  intro s t hst
  cases registerStep_of_step hst with
  | init h ht => exact .inl ⟨h, congrArg State.LEN ht⟩
  | completion p h ht =>
    cases p with
    | block => exact .inr (.inl ⟨h, by rw [ht, complete_LEN, completedLen_block_toNat]⟩)
    | final nb => exact .inr (.inr (.inl ⟨nb, h, by rw [ht, complete_LEN, completedLen_final_toNat]⟩))
  | reset h ht => exact .inr (.inr (.inr (.inl ⟨h, congrArg State.LEN ht⟩)))
  | message j v h ht => exact .inr (.inr (.inr (.inr (ht ▸ rfl))))
  | other h =>
    obtain ⟨-, hLEN, -⟩ := h
    exact .inr (.inr (.inr (.inr hLEN)))

/-- Settles O34: with none of the writers at work, what is left of the steps keeps PHASE. -/
theorem phaseWriters : Obligations.PhaseWriters := by
  intro s t hst
  by_cases hinit : TakesCommand s .init
  · exact .inl ⟨hinit, congrArg State.PHASE (hinit.eq_of_step hst)⟩
  by_cases hfinal : ∃ nb, s.nextMove = .complete (.final nb)
  · obtain ⟨nb, h⟩ := hfinal
    exact .inr (.inl ⟨nb, h, by rw [eq_complete_of_step h hst, complete_PHASE, completedPhase]⟩)
  by_cases hreset : IsReset s
  · exact .inr (.inr (.inl ⟨hreset, congrArg State.PHASE (hreset.eq_of_step hst)⟩))
  · rw [not_exists] at hfinal
    refine .inr (.inr (.inr ⟨?_, hinit, hfinal, hreset⟩))
    cases registerStep_of_step hst with
    | init h ht => exact absurd h hinit
    | completion p h ht =>
      cases p with
      | block => rw [ht, complete_PHASE, completedPhase]
      | final nb => exact absurd h (hfinal nb)
    | reset h ht => exact absurd h hreset
    | message j v h ht => exact ht ▸ rfl
    | other h =>
      obtain ⟨-, -, -, hPHASE⟩ := h
      exact hPHASE

/-! ### A recorded error -/

/-- An error recorded in `s` is recorded in `t` with the same code. -/
def KeepsError (s t : State) : Prop := s.ERR = true → t.ERR = true ∧ t.ERRCODE = s.ERRCODE

theorem raiseError_keepsError (code : ErrCode) (s : State) : KeepsError s (s.raiseError code) :=
  fun h => ⟨rfl, State.raiseError_ERRCODE_of_err code h⟩

theorem writeMsg_keepsError (j : Fin 16) (v : Word) (s : State) : KeepsError s (s.writeMsg j v) := by
  cases hb : s.BUSY with
  | true => exact State.writeMsg_of_busy j v hb ▸ raiseError_keepsError .busy s
  | false => exact State.writeMsg_of_not_busy j v hb ▸ fun h => ⟨h, rfl⟩

theorem issueInActive_keepsError (p : Pending) (s : State) : KeepsError s (s.issueInActive p) := by
  rcases s.issueInActive_cases p with ⟨-, heq⟩ | ⟨-, heq⟩ <;> rw [heq]
  · exact fun h => ⟨h, rfl⟩
  · exact raiseError_keepsError .sequence s

/-- Settles O9: a later error keeps the first one's code, and only INIT, CLRERR and reset clear it. -/
theorem recordedErrorIsSticky : Obligations.RecordedErrorIsSticky := by
  intro s t hst herr hinit hclrerr hreset
  suffices h : KeepsError s t from h herr
  cases step_cases hst with
  | completion p hm ht => exact ht ▸ fun h => ⟨(complete_ERR p s).trans h, complete_ERRCODE p s⟩
  | idle hm ht => exact ht ▸ fun h => ⟨h, rfl⟩
  | reset hm ht => exact absurd hm hreset
  | wait hm ht => rw [ht, waitTurn_eq]; exact fun h => ⟨h, rfl⟩
  | read o ha hm ht => exact ht ▸ fun h => ⟨h, rfl⟩
  | ignored o v ha hc hj hm ht => exact ht ▸ fun h => ⟨h, rfl⟩
  | message j v hm ht => exact ht ▸ writeMsg_keepsError j v s.takeEvent
  | busy w hm hb ht => exact ht ▸ raiseError_keepsError .busy s.takeEvent
  | illegal w e hm hb hd ht => exact ht ▸ raiseError_keepsError .illegal s.takeEvent
  | command w i hm hb hd ht =>
    subst ht
    cases i with
    | nop => exact fun h => ⟨h, rfl⟩
    | init => exact absurd ⟨hb, w, hm, hd⟩ hinit
    | block => exact issueInActive_keepsError .block s.takeEvent
    | final nb => exact issueInActive_keepsError (.final nb) s.takeEvent
    | clrerr => exact absurd ⟨hb, w, hm, hd⟩ hclrerr

/-! ### A pending command -/

/-- Two states that differ at most in the recorded error and the surroundings. -/
def EqualButErrorAndHost (s t : State) : Prop :=
  t = { s with ERR := t.ERR, ERRCODE := t.ERRCODE, inbox := t.inbox, outbox := t.outbox, slack := t.slack }

/-- While BUSY = 1 an event other than a reset is a read, an ignored write or a write that raises BUSY. -/
theorem equalButErrorAndHost_of_busy_event {s t : State} {e : Event} (hbusy : s.BUSY = true)
    (he : s.nextMove = .event e) (hne : e ≠ .reset) (hst : step s = .next t) : EqualButErrorAndHost s t := by
  cases step_cases hst with
  | completion p hm ht => simp [hm] at he
  | idle hm ht => simp [hm] at he
  | reset hm ht =>
    rw [hm] at he
    exact absurd (Move.event.inj he).symm hne
  | wait hm ht => rw [ht, waitTurn_eq]; rfl
  | read o ha hm ht => exact ht ▸ rfl
  | ignored o v ha hc hj hm ht => exact ht ▸ rfl
  | message j v hm ht => rw [ht, State.writeMsg_of_busy j v (s := s.takeEvent) hbusy]; rfl
  | busy w hm hb ht => exact ht ▸ rfl
  | illegal w e' hm hb hd ht => simp [hb] at hbusy
  | command w i hm hb hd ht => simp [hb] at hbusy

/-- Settles O36: such an event changes at most the recorded error and the surroundings. -/
theorem pendingCommandIsUndisturbed : Obligations.PendingCommandIsUndisturbed := by
  rintro s t hbusy ⟨e, he, hne⟩ hst
  rw [equalButErrorAndHost_of_busy_event hbusy he hne hst]
  exact ⟨⟨rfl, rfl, rfl, rfl⟩, hbusy, rfl, rfl, rfl, rfl⟩

end Sys2Proof.Machine
end

section
/-! The round loop on the engine's registers (10_state.md R27; 42_compression.md R155, R157) and STATUS as a number
(10_state.md R34). -/

namespace Sys2Proof.Machine

/-! ### The round loop -/

/-- The last of `n + 1` rounds, split off. -/
theorem State.runRounds_succ (n : Nat) (s : State) : s.runRounds (n + 1) = (s.runRounds n).runRound := by
  induction n generalizing s with
  | zero => rfl
  | succ n ih => exact ih s.runRound

theorem State.runRound_frame (s : State) : s.runRound.H = s.H ∧ s.runRound.W = s.W := by
  unfold State.runRound
  split <;> exact ⟨rfl, rfl⟩

theorem State.runRounds_frame (n : Nat) (s : State) : (s.runRounds n).H = s.H ∧ (s.runRounds n).W = s.W := by
  induction n generalizing s with
  | zero => exact ⟨rfl, rfl⟩
  | succ n ih =>
    obtain ⟨hH, hW⟩ := ih s.runRound
    exact ⟨hH.trans s.runRound_frame.1, hW.trans s.runRound_frame.2⟩

/-- RND counts the rounds (10_state.md R27). -/
theorem State.runRounds_loadWorking_RND {n : Nat} (hn : n ≤ 64) (s : State) :
    (s.loadWorking.runRounds n).RND.val = n := by
  rw [State.runRounds_eq n _ (by simp; omega)]
  simp

/-- A round with RND = j reads K[j] and W[j] (42_compression.md R155). -/
theorem State.runRound_work {s : State} {j : Fin 64} (h : s.RND.val = j.val) :
    s.runRound.work = compressRound K[j] s.W[j] s.work := by
  simp [State.runRound, h]

/-- With RND = 64 the rounds are done. -/
theorem State.runRounds_of_done {s : State} (h : s.RND = 64) (n : Nat) : s.runRounds n = s := by
  have hround : s.runRound = s := by simp [State.runRound, h]
  induction n with
  | zero => rfl
  | succ n ih => rw [State.runRounds, hround, ih]

theorem State.runRounds_add (m n : Nat) (s : State) : s.runRounds (m + n) = (s.runRounds m).runRounds n := by
  induction m generalizing s with
  | zero => rw [Nat.zero_add]; rfl
  | succ m ih => rw [Nat.succ_add]; exact ih s.runRound

/-- The 64 rounds from the registers loaded from H are `CompressRounds(H, W)` (42_compression.md R157, R158). -/
theorem State.runRounds_loadWorking_work (s : State) :
    (s.loadWorking.runRounds 64).work = compressRounds s.H s.W := by
  rw [State.runRounds_eq 64 _ (by simp)]
  unfold roundsFrom compressRounds
  simp [List.take_of_length_le]

/-- Once the 64 rounds are done, further turns change nothing. -/
theorem State.runRounds_loadWorking_of_ge {n : Nat} (hn : 64 ≤ n) (s : State) :
    s.loadWorking.runRounds n = s.loadWorking.runRounds 64 := by
  obtain ⟨k, rfl⟩ := Nat.exists_eq_add_of_le hn
  rw [State.runRounds_add]
  exact State.runRounds_of_done (Fin.ext (State.runRounds_loadWorking_RND (le_refl 64) s)) k

/-- K holds the words that 10_state.md R45 prints. -/
theorem K_eq_printedK :
    Claims.printedK.map Prod.fst = List.range 16 ∧
      ∀ line ∈ Claims.printedK, ∀ column : Fin 4,
        ∃ w, line.2[column.val]? = some w ∧ K[line.1 + 16 * column.val]? = some w := by
  refine ⟨rfl, fun line hline column => ?_⟩
  have hall : ∀ l ∈ Claims.printedK, ∀ c : Fin 4,
      (l.2[c.val]?).isSome = true ∧ K[l.1 + 16 * c.val]? = l.2[c.val]? := by decide
  obtain ⟨hsome, hK⟩ := hall line hline column
  obtain ⟨w, hw⟩ := Option.isSome_iff_exists.1 hsome
  exact ⟨w, hw, hK.trans hw⟩

/-- Settles O51: round j is the last of the first j + 1, and with RND = 64 no further round runs. -/
theorem roundLoopRunsSixtyFourRounds : Obligations.RoundLoopRunsSixtyFourRounds := by
  refine ⟨K_eq_printedK, fun s => ⟨fun j => ?_, fun n hn => ?_⟩⟩
  · have hRND : (s.loadWorking.runRounds j.val).RND.val = j.val := s.runRounds_loadWorking_RND (by omega)
    have hW : (s.loadWorking.runRounds j.val).W = s.W := (State.runRounds_frame _ _).2
    refine ⟨hRND, s.runRounds_loadWorking_RND j.isLt, ?_, State.runRounds_frame _ _⟩
    rw [State.runRounds_succ, State.runRound_work hRND, hW]
  · rw [State.runRounds_loadWorking_of_ge hn]
    exact ⟨Fin.ext (s.runRounds_loadWorking_RND (le_refl 64)), s.runRounds_loadWorking_work⟩

/-! ### STATUS -/

/-- Two fields side by side, as a number. -/
theorem toNat_append_eq_add {m n : Nat} (x : BitVec m) (y : BitVec n) :
    (x ++ y).toNat = 2 ^ n * x.toNat + y.toNat := by
  rw [BitVec.toNat_append, ← Nat.shiftLeft_add_eq_or_of_lt y.isLt, Nat.shiftLeft_eq, Nat.mul_comm]

theorem State.toNat_statusWord (s : State) :
    s.statusWord.toNat = s.BUSY.toNat + 2 * s.PHASE.bits.toNat + 8 * s.ERR.toNat + 16 * s.ERRCODE.bits.toNat := by
  unfold State.statusWord
  simp only [toNat_append_eq_add, BitVec.toNat_ofBool, BitVec.ofNat_eq_ofNat, BitVec.toNat_ofNat,
    Nat.zero_mod]
  ring

/-- Settles O24: each field is worth its own number times the weight of its lowest bit. -/
theorem statusWordLayout : Obligations.StatusWordLayout := by
  intro s
  rw [State.toNat_statusWord]
  refine congrArg₂ (· + ·) (congrArg₂ (· + ·) (congrArg₂ (· + ·) ?busy (congrArg (2 * ·) ?phase))
    (congrArg (8 * ·) ?err)) (congrArg (16 * ·) ?code)
  case busy => cases s.BUSY <;> rfl
  case phase => cases s.PHASE <;> rfl
  case err => cases s.ERR <;> rfl
  case code => cases s.ERRCODE <;> rfl

end Sys2Proof.Machine
end

section
/-! Whose turn it is and what a step answers (20_memory.md R63, R72, R78; 44_commands.md R201, R220), and what fills the
command slot (10_state.md R42). -/

namespace Sys2Proof.Machine

/-! ### The step of the agent whose turn it is -/

theorem State.nextMove_of_nothing {s : State} (hp : s.PEND = none) (hi : s.inbox = []) : s.nextMove = .idle := by
  simp [State.nextMove, State.nextEvent, hp, hi]

theorem step_of_idle {s : State} (h : s.nextMove = .idle) : step s = .next s := by
  simp [step, h, performMove]

theorem State.takeEvent_of_inbox {s : State} {e : Event} {es : List Event} (hi : s.inbox = e :: es) :
    s.takeEvent = { s with inbox := es, slack := s.slack - 1 } := by
  simp [State.takeEvent, hi]

theorem step_of_inbox {s : State} {e : Event} {es : List Event} (hi : s.inbox = e :: es)
    (h : s.PEND = none ∨ s.slack ≠ 0) :
    step s = performEvent e { s with inbox := es, slack := s.slack - 1 } := by
  rw [step_of_event (State.nextMove_of_slack hi h), State.takeEvent_of_inbox hi]

/-- Settles O6: the four cases of whose turn it is. -/
theorem stepFollowsTheSchedule : Obligations.StepFollowsTheSchedule := by
  refine ⟨fun _ _ => rfl, fun s => ⟨?completion, ?delayed, ?free, ?idle⟩⟩
  case completion => exact fun p hp hdue => step_of_complete (State.nextMove_of_delay hp hdue)
  case delayed => exact fun p e es _ hi hslack => step_of_inbox hi (.inr (Nat.ne_of_gt hslack))
  case free => exact fun e es hp hi => step_of_inbox hi (.inl hp)
  case idle => exact fun hp hi => step_of_idle (State.nextMove_of_nothing hp hi)

/-! ### The write of a command word -/

/-- A legal word is issued as the command it decodes to (44_commands.md R201). -/
theorem issueCmd_of_decode {w : Word} {i : Instr} (hd : decode w = .ok i) (s : State) : issueCmd w s = exec i s := by
  rw [issueCmd_eq, exec_eq, hd]

theorem tableWord_toNat (w : Word) : tableWord 32 w.toNat = w :=
  BitVec.eq_of_toNat_eq (by simpa [tableWord] using w.isLt)

/-- A placed event comes before any completion (log 4). -/
theorem State.nextMove_withNextEvent (e : Event) (s : State) : (s.withNextEvent e).nextMove = .event e :=
  State.nextMove_of_slack (es := s.inbox) rfl (.inr (Nat.succ_ne_zero s.slack))

theorem step_of_cmdWrite {w : Word} {i : Instr} {s : State} (hd : decode w = .ok i)
    (hm : s.nextMove = .event (cmdWrite w)) : step s = exec i s.takeEvent :=
  (step_of_event hm).trans (issueCmd_of_decode hd s.takeEvent)

/-- Settles O5: a placed word is the write that is due, and taking it gives the state back. -/
theorem stepRunsTheWrittenCommand : Obligations.StepRunsTheWrittenCommand := by
  intro w i s hd
  refine ⟨step_of_cmdWrite hd, ?_⟩
  rw [State.withFetchWord, tableWord_toNat, step_of_cmdWrite hd (s.nextMove_withNextEvent (cmdWrite w)),
    State.takeEvent_withNextEvent]

/-! ### Refusals -/

theorem Access.not_admitted_read {size : Nat} {o : BitVec 8} :
    (Access.read size o).admitted = false ↔ size ≠ 4 ∨ o.toNat % 4 ≠ 0 := by
  simp [Access.admitted, imp_iff_not_or]

theorem Access.not_admitted_write {size : Nat} {o : BitVec 8} {v : Word} :
    (Access.write size o v).admitted = false ↔ size ≠ 4 ∨ o.toNat % 4 ≠ 0 :=
  Access.not_admitted_read

/-- Every register takes a write: at most an error is recorded (20_memory.md R69, R71, R72, R73). -/
theorem writeReg_answers (r : Reg) (v : Word) (s : State) : ∃ t, writeReg r v s = .next t := by
  cases r with
  | cmd => exact ⟨_, issueCmd_eq v s⟩
  | msg j => exact ⟨_, rfl⟩
  | status => exact ⟨_, rfl⟩
  | lenLo => exact ⟨_, rfl⟩
  | lenHi => exact ⟨_, rfl⟩
  | hash i => exact ⟨_, rfl⟩
  | reserved => exact ⟨_, rfl⟩

theorem performAccess_answers {a : Access} (h : a.admitted = true) (s : State) : ∃ t, performAccess a s = .next t := by
  cases a with
  | read size o => exact ⟨_, if_pos h⟩
  | write size o v =>
    obtain ⟨t, ht⟩ := writeReg_answers (regAt o) v s
    exact ⟨t, (if_pos h).trans ht⟩

theorem performAccess_of_not_admitted {a : Access} (h : a.admitted = false) (s : State) :
    performAccess a s = .refused .accessNotAdmitted := by
  simp [performAccess, h]

theorem performEvent_answers {e : Event} (h : e.admitted = true) (s : State) : ∃ t, performEvent e s = .next t := by
  cases e with
  | bus a => exact performAccess_answers h s
  | wait => exact ⟨_, rfl⟩
  | reset => exact ⟨_, rfl⟩

/-- An access that is not admitted is due. -/
def RefusalDue (s : State) : Prop := ∃ a, s.nextMove = .event (.bus a) ∧ a.admitted = false

theorem step_of_refusalDue {s : State} (h : RefusalDue s) : step s = .refused .accessNotAdmitted := by
  obtain ⟨a, hm, ha⟩ := h
  exact (step_of_event hm).trans (performAccess_of_not_admitted ha _)

theorem step_answers_of_not_refusalDue {s : State} (h : ¬ RefusalDue s) : ∃ t, step s = .next t := by
  cases hm : s.nextMove with
  | complete p => exact ⟨_, step_of_complete hm⟩
  | idle => exact ⟨_, step_of_idle hm⟩
  | event e =>
    have he : e.admitted = true := by
      cases e with
      | bus a => exact Bool.of_not_eq_false fun ha => h ⟨a, hm, ha⟩
      | wait => rfl
      | reset => rfl
    rw [step_of_event hm]
    exact performEvent_answers he _

/-- Settles O7: a step answers a next state unless the access that is due is not admitted, and then it is refused. -/
theorem onlyNonAdmittedAccessesAreRefused : Obligations.OnlyNonAdmittedAccessesAreRefused := by
  intro s
  have hdue : (∃ r, step s = .refused r) ↔ RefusalDue s := by
    refine ⟨fun ⟨r, hr⟩ => ?_, fun h => ⟨_, step_of_refusalDue h⟩⟩
    by_contra h
    obtain ⟨t, ht⟩ := step_answers_of_not_refusalDue h
    simp [ht] at hr
  refine ⟨(nomatch ·), hdue.trans (exists_congr fun a => and_congr_right fun _ => ?_)⟩
  cases a with
  | read size o => exact Access.not_admitted_read
  | write size o v => exact Access.not_admitted_write

end Sys2Proof.Machine

namespace Sys2Proof.Claims

open Sys2Proof.Machine

/-! ### The command slot -/

/-- The command that puts `p` into the slot. -/
def pendingInstr : Pending → Instr
  | .block => .block
  | .final nb => .final nb

theorem commandEffect_pendingInstr (p : Pending) (s : State) :
    commandEffect (pendingInstr p) s = s.issueInActive p := by
  cases p <;> rfl

/-- Only the issue of BLOCK or FINAL can change PEND (44_commands.md R202, R205, R206). -/
theorem commandEffect_PEND (i : Instr) (s : State) :
    (commandEffect i s).PEND = s.PEND ∨ ∃ p, i = pendingInstr p := by
  cases i with
  | nop => exact .inl rfl
  | init => exact .inl rfl
  | block => exact .inr ⟨.block, rfl⟩
  | final nb => exact .inr ⟨.final nb, rfl⟩
  | clrerr => exact .inl rfl

theorem writeMsg_PEND (j : Fin 16) (v : Word) (s : State) : (s.writeMsg j v).PEND = s.PEND := by
  unfold State.writeMsg
  split <;> rfl

/-- A step leaves the slot as it was, empties it, or takes a command into it in ACTIVE. -/
theorem PEND_of_step {s t : State} (hst : step s = .next t) :
    t.PEND = s.PEND ∨ t.PEND = none ∨
      ∃ p, TakesCommand s (pendingInstr p) ∧ s.PHASE = .active ∧ t = s.takeEvent.setPending p := by
  cases step_cases hst with
  | completion p hm ht => exact .inr (.inl (ht ▸ complete_PEND p s))
  | idle hm ht => exact .inl (ht ▸ rfl)
  | reset hm ht => exact .inr (.inl (ht ▸ rfl))
  | wait hm ht => exact .inl (by rw [ht, waitTurn_eq]; rfl)
  | read o ha hm ht => exact .inl (ht ▸ rfl)
  | ignored o v ha hc hj hm ht => exact .inl (ht ▸ rfl)
  | message j v hm ht => exact .inl (ht ▸ writeMsg_PEND j v s.takeEvent)
  | busy w hm hb ht => exact .inl (ht ▸ rfl)
  | illegal w e hm hb hd ht => exact .inl (ht ▸ rfl)
  | command w i hm hb hd ht =>
    rcases commandEffect_PEND i s.takeEvent with hkeep | ⟨p, rfl⟩
    · exact .inl (ht ▸ hkeep)
    · rw [commandEffect_pendingInstr] at ht
      rcases s.takeEvent.issueInActive_cases p with ⟨hphase, heq⟩ | ⟨-, heq⟩
      · exact .inr (.inr ⟨p, ⟨hb, w, hm, hd⟩, hphase, ht.trans heq⟩)
      · exact .inl (by rw [ht, heq]; rfl)

/-- Settles O35: of the three things a step can do to the slot, only one fills it. -/
theorem onlyCommandsStartActivity : Obligations.OnlyCommandsStartActivity := by
  intro s t hst hs ht
  rcases PEND_of_step hst with hkeep | hempty | ⟨p, htakes, hphase, rfl⟩
  · exact absurd (hkeep.trans hs) ht
  · exact absurd hempty ht
  · refine ⟨hphase, rfl, ?_⟩
    cases p with
    | block => exact .inl ⟨htakes, rfl⟩
    | final nb => exact .inr ⟨nb, htakes, rfl⟩

end Sys2Proof.Claims
end

section
/-! What the host reads and writes through the register window (20_memory.md R65 to R74). -/

namespace Sys2Proof.Machine

/-! ### One access to one register -/

theorem hashOffset_aligned (i : Fin 8) : (BitVec.ofNat 8 (0x80 + 4 * i.val)).toNat % 4 = 0 := by
  revert i; decide

/-- The reserved offsets of the window's map (20_memory.md R64, R71). -/
theorem regAt_reserved {o : BitVec 8} (h : 0x10 ≤ o.toNat ∧ o.toNat ≤ 0x3C ∨ 0xA0 ≤ o.toNat) :
    regAt o = .reserved := by
  unfold regAt
  repeat rw [if_neg (by omega)]
  rw [dif_neg (by omega), dif_neg (by omega)]

theorem performAccess_read_of_regAt {o : BitVec 8} {r : Reg} (ha : o.toNat % 4 = 0) (hr : regAt o = r) (s : State) :
    performAccess (.read 4 o) s = .next { s with outbox := s.outbox ++ [s.readReg r] } :=
  hr ▸ performAccess_read o s ha

theorem performAccess_write_of_regAt {o : BitVec 8} {r : Reg} (ha : o.toNat % 4 = 0) (hr : regAt o = r) (v : Word)
    (s : State) : performAccess (.write 4 o v) s = writeReg r v s :=
  hr ▸ performAccess_write o v s ha

/-! ### The registers -/

theorem LEN_low_half (LEN : Len) : LEN.extractLsb' 0 32 = BitVec.ofNat 32 (LEN.toNat % 2 ^ 32) :=
  BitVec.eq_of_toNat_eq (by simp [BitVec.extractLsb'_toNat])

theorem LEN_high_half (LEN : Len) : LEN.extractLsb' 32 32 = BitVec.ofNat 32 (LEN.toNat / 2 ^ 32) :=
  BitVec.eq_of_toNat_eq (by simp [BitVec.extractLsb'_toNat, Nat.shiftRight_eq_div_pow])

/-- Settles O23: the four offsets select CMD, STATUS and the halves of LEN. -/
theorem controlRegistersRead : Obligations.ControlRegistersRead := by
  intro s
  refine ⟨?cmd, ?status, ?lenLo, ?lenHi⟩
  case cmd => exact performAccess_read_of_regAt (r := .cmd) rfl rfl s
  case status => exact performAccess_read_of_regAt (r := .status) rfl rfl s
  case lenLo =>
    rw [← LEN_low_half]
    exact performAccess_read_of_regAt (r := .lenLo) rfl rfl s
  case lenHi =>
    rw [← LEN_high_half]
    exact performAccess_read_of_regAt (r := .lenHi) rfl rfl s

/-- Settles O25: a write is taken with BUSY = 0 and is an error with BUSY = 1. -/
theorem messageRegistersReadAndWrite : Obligations.MessageRegistersReadAndWrite := by
  intro s j v
  have hwrite : performAccess (.write 4 (BitVec.ofNat 8 (0x40 + 4 * j.val)) v) s = .next (s.writeMsg j v) :=
    performAccess_write_of_regAt (msgOffset_aligned j) (regAt_msg j) v s
  refine ⟨performAccess_read_of_regAt (msgOffset_aligned j) (regAt_msg j) s, fun hbusy => ?_, fun hfree => ?_⟩
  · rw [hwrite, State.writeMsg_of_busy j v hbusy]
  · rw [hwrite, State.writeMsg_of_not_busy j v hfree]
    refine ⟨_, rfl, rfl, Vector.getElem_set_self j.isLt, fun k hk => ?_⟩
    exact Vector.getElem_set_ne j.isLt k.isLt fun h => hk (Fin.ext h.symm)

theorem H0_eq_printedH0 (i : Fin 8) : Claims.printedH0[i.val]? = some H0[i] := by
  revert i; decide

/-- Settles O26: the offset selects H[i], which reset and INIT fill. -/
theorem hashRegistersRead : Obligations.HashRegistersRead := by
  intro s i
  refine ⟨performAccess_read_of_regAt (hashOffset_aligned i) (regAt_hash i) s, Vector.getElem_replicate i.isLt,
    fun hfree => ?_⟩
  exact ⟨s.startComputation, exec_of_not_busy .init hfree, rfl, H0_eq_printedH0 i⟩

/-- Settles O27: these offsets select no register. -/
theorem reservedOffsetsReadZeroAndIgnoreWrites : Obligations.ReservedOffsetsReadZeroAndIgnoreWrites :=
  fun s _ v ha ho =>
    ⟨performAccess_read_of_regAt ha (regAt_reserved ho) s, performAccess_write_of_regAt ha (regAt_reserved ho) v s⟩

/-- Settles O28: the offsets select registers whose write keeps the state. -/
theorem readOnlyRegistersIgnoreWrites : Obligations.ReadOnlyRegistersIgnoreWrites := by
  intro s v
  refine ⟨?status, ?lenLo, ?lenHi, fun i => ?hash⟩
  case status => exact performAccess_write_of_regAt (r := .status) rfl rfl v s
  case lenLo => exact performAccess_write_of_regAt (r := .lenLo) rfl rfl v s
  case lenHi => exact performAccess_write_of_regAt (r := .lenHi) rfl rfl v s
  case hash => exact performAccess_write_of_regAt (hashOffset_aligned i) (regAt_hash i) v s

/-- No register shows what the host has read before. -/
@[simp] theorem State.readReg_respond (v : Word) (s : State) (r : Reg) : (s.respond v).readReg r = s.readReg r := by
  cases r <;> rfl

/-- Settles O29: the first read leaves every register as it was, so the second answers the same. -/
theorem readsHaveNoSideEffect : Obligations.ReadsHaveNoSideEffect := by
  intro s o ha
  refine ⟨s.readReg (regAt o), performAccess_read o s ha, fun t ht => ?_⟩
  obtain rfl : s.respond (s.readReg (regAt o)) = t := Host.Outcome.next.inj ((performAccess_read o s ha).symm.trans ht)
  rw [performAccess_read o _ ha, State.readReg_respond]
  simp [State.respond]

end Sys2Proof.Machine
end

section
/-! Where a completion falls among the host's accesses (20_memory.md R78; 44_commands.md R222; 95_test_vectors.md P4). A
run has two parts: until the completion no event touches what it reads, and after it none touches what it wrote. -/

namespace Sys2Proof.Claims

open Sys2Proof.Machine

/-! ### Events that are neither commands nor resets -/

/-- An admitted event that is neither a reset nor a CMD write. -/
def QuietEvent (e : Event) : Prop := e.admitted = true ∧ e ≠ .reset ∧ ∀ w, e ≠ cmdWrite w

/-- What a quiet event does: the command slot, H, LEN and PHASE stay, MSG too while BUSY = 1, and the event leaves the
inbox, unless it is a WAIT that goes on. -/
structure QuietStep (s t : State) : Prop where
  H : t.H = s.H
  LEN : t.LEN = s.LEN
  PHASE : t.PHASE = s.PHASE
  BUSY : t.BUSY = s.BUSY
  PEND : t.PEND = s.PEND
  MSG : s.BUSY = true → t.MSG = s.MSG
  slack : t.slack = s.slack - 1
  inbox : t.inbox = s.inbox.tail ∨ s.BUSY = true ∧ t.inbox = s.inbox

theorem quietStep_takeEvent (s : State) : QuietStep s s.takeEvent :=
  ⟨rfl, rfl, rfl, rfl, rfl, fun _ => rfl, rfl, .inl rfl⟩

theorem quietStep_respond (v : Word) (s : State) : QuietStep s (s.takeEvent.respond v) :=
  ⟨rfl, rfl, rfl, rfl, rfl, fun _ => rfl, rfl, .inl rfl⟩

theorem quietStep_waitTurn {s : State} (hi : s.inbox = .wait :: s.inbox.tail) : QuietStep s (waitTurn s.takeEvent) := by
  rw [waitTurn_eq]
  refine ⟨rfl, rfl, rfl, rfl, rfl, fun _ => rfl, rfl, ?_⟩
  cases hb : s.BUSY with
  | true => exact .inr ⟨rfl, by simp [hb, ← hi]⟩
  | false => exact .inl (by simp [hb])

theorem quietStep_writeMsg (j : Fin 16) (v : Word) (s : State) : QuietStep s (s.takeEvent.writeMsg j v) := by
  cases hb : s.BUSY with
  | true =>
    rw [State.writeMsg_of_busy j v (s := s.takeEvent) hb]
    exact ⟨rfl, rfl, rfl, rfl, rfl, fun _ => rfl, rfl, .inl rfl⟩
  | false =>
    rw [State.writeMsg_of_not_busy j v (s := s.takeEvent) hb]
    exact ⟨rfl, rfl, rfl, rfl, rfl, fun h => by simp [hb] at h, rfl, .inl rfl⟩

theorem quietStep_of_step {s t : State} {e : Event} (hm : s.nextMove = .event e) (he : QuietEvent e)
    (hst : step s = .next t) : QuietStep s t := by
  obtain ⟨-, hreset, hcmd⟩ := he
  have hsame {e' : Event} (hm' : s.nextMove = .event e') : e = e' := Move.event.inj (hm.symm.trans hm')
  cases step_cases hst with
  | completion p hm' ht => cases hm.symm.trans hm'
  | idle hm' ht => cases hm.symm.trans hm'
  | reset hm' ht => exact absurd (hsame hm') hreset
  | wait hm' ht =>
    obtain ⟨hi, -⟩ := State.nextMove_event hm'
    exact ht ▸ quietStep_waitTurn hi
  | read o ha hm' ht => exact ht ▸ quietStep_respond _ s
  | ignored o v ha hc hj hm' ht => exact ht ▸ quietStep_takeEvent s
  | message j v hm' ht => exact ht ▸ quietStep_writeMsg j v s
  | busy w hm' hb ht => exact absurd (hsame hm') (hcmd w)
  | illegal w d hm' hb hd ht => exact absurd (hsame hm') (hcmd w)
  | command w i hm' hb hd ht => exact absurd (hsame hm') (hcmd w)

theorem exists_quietStep {s : State} {e : Event} {es : List Event} (hi : s.inbox = e :: es)
    (hturn : s.PEND = none ∨ s.slack ≠ 0) (he : QuietEvent e) : ∃ t, step s = .next t ∧ QuietStep s t := by
  have hm : s.nextMove = .event e := State.nextMove_of_slack hi hturn
  obtain ⟨t, ht⟩ := performEvent_answers he.1 s.takeEvent
  have hst : step s = .next t := (step_of_event hm).trans ht
  exact ⟨t, hst, quietStep_of_step hm he hst⟩

/-- Every event still to come is quiet. -/
def QuietInbox (s : State) : Prop := ∀ e ∈ s.inbox, QuietEvent e

theorem QuietStep.quietInbox {s t : State} (h : QuietStep s t) (hq : QuietInbox s) : QuietInbox t := by
  unfold QuietInbox
  rcases h.inbox with hi | ⟨-, hi⟩ <;> rw [hi]
  · exact fun e he => hq e (List.mem_of_mem_tail he)
  · exact hq

/-! ### The result of a computation -/

/-- H, LEN and PHASE are as before. -/
def SameResult (s t : State) : Prop := t.H = s.H ∧ t.LEN = s.LEN ∧ t.PHASE = s.PHASE

theorem SameResult.trans {s t u : State} (h : SameResult s t) (h' : SameResult t u) : SameResult s u := by
  obtain ⟨hH, hLEN, hPHASE⟩ := h
  obtain ⟨hH', hLEN', hPHASE'⟩ := h'
  exact ⟨hH'.trans hH, hLEN'.trans hLEN, hPHASE'.trans hPHASE⟩

/-- A completion reads H, LEN, MSG and PHASE alone (44_commands.md R211, R216). -/
theorem SameRegisters.complete {s t : State} (h : SameRegisters s t) (p : Pending) :
    SameResult (complete p s) (complete p t) := by
  obtain ⟨hH, hLEN, hMSG, hPHASE⟩ := h
  simp [SameResult, hH, hLEN, hMSG, hPHASE]

theorem QuietStep.sameResult {s t : State} (h : QuietStep s t) : SameResult s t := ⟨h.H, h.LEN, h.PHASE⟩

theorem QuietStep.sameRegisters {s t : State} (h : QuietStep s t) (hb : s.BUSY = true) : SameRegisters s t :=
  ⟨h.H, h.LEN, h.MSG hb, h.PHASE⟩

/-! ### The two parts of a run -/

/-- `p`, pending in `s`, has completed in `t` with the result it would have had at once, and what is still to come is
quiet. -/
structure CompletedQuietly (p : Pending) (s t : State) : Prop where
  PEND : t.PEND = none
  BUSY : t.BUSY = false
  quiet : QuietInbox t
  result : SameResult (complete p s) t

/-- A completion that is due is the next step, and leaves the events still to come as they are. -/
theorem exists_completion_of_due {s : State} {p : Pending} (hp : s.PEND = some p) (hdue : s.slack = 0 ∨ s.inbox = [])
    (hq : QuietInbox s) : ∃ n t, Reaches n s t ∧ CompletedQuietly p s t :=
  ⟨1, complete p s, reaches_one (step_of_complete (State.nextMove_of_delay hp hdue)), complete_PEND p s,
    complete_BUSY p s, by simpa [QuietInbox] using hq, rfl, rfl, rfl⟩

/-- The delay of a pending command runs out, and it completes as it would have at once. -/
theorem exists_completion {s : State} {p : Pending} (hp : s.PEND = some p) (hb : s.BUSY = true) (hq : QuietInbox s) :
    ∃ n t, Reaches n s t ∧ CompletedQuietly p s t := by
  induction hk : s.slack generalizing s with
  | zero => exact exists_completion_of_due hp (.inl hk) hq
  | succ k ih =>
    cases hi : s.inbox with
    | nil => exact exists_completion_of_due hp (.inr hi) hq
    | cons e es =>
      obtain ⟨u, hst, hu⟩ := exists_quietStep hi (.inr (by omega)) (hq e (by simp [hi]))
      obtain ⟨n, t, hr, ht⟩ := ih (hu.PEND.trans hp) (hu.BUSY.trans hb) (hu.quietInbox hq) (by rw [hu.slack, hk]; rfl)
      have hres : SameResult (complete p s) t := ((hu.sameRegisters hb).complete p).trans ht.result
      exact ⟨n + 1, t, reaches_succ hst hr, { ht with result := hres }⟩

/-- With nothing pending every quiet event is performed, and the result stays. -/
theorem exists_drained {s : State} (hp : s.PEND = none) (hb : s.BUSY = false) (hq : QuietInbox s) :
    ∃ n t, Reaches n s t ∧ t.inbox = [] ∧ t.PEND = none ∧ SameResult s t := by
  induction hi : s.inbox generalizing s with
  | nil => exact ⟨0, s, rfl, hi, hp, rfl, rfl, rfl⟩
  | cons e es ih =>
    obtain ⟨u, hst, hu⟩ := exists_quietStep hi (.inl hp) (hq e (by simp [hi]))
    have hui : u.inbox = es := by
      rcases hu.inbox with h | ⟨h, -⟩
      · simp [h, hi]
      · simp [hb] at h
    obtain ⟨n, t, hr, hti, htp, hres⟩ := ih (hu.PEND.trans hp) (hu.BUSY.trans hb) (hu.quietInbox hq) hui
    exact ⟨n + 1, t, reaches_succ hst hr, hti, htp, hu.sameResult.trans hres⟩

/-- Settles O45: the events that come before the completion, then those after it. -/
theorem resultDoesNotDependOnTheSchedule : Obligations.ResultDoesNotDependOnTheSchedule := by
  intro s p es k hinv hp hq
  have hb : s.BUSY = true := by rw [hinv.busy_pend, hp]; rfl
  have hsame : SameRegisters s { s with inbox := es, slack := k } := ⟨rfl, rfl, rfl, rfl⟩
  obtain ⟨n, u, hru, hu⟩ := exists_completion (s := { s with inbox := es, slack := k }) hp hb hq
  obtain ⟨m, t, hrt, hti, htp, htres⟩ := exists_drained hu.PEND hu.BUSY hu.quiet
  exact ⟨n + m, t, reaches_trans hru hrt, hti, htp, ((hsame.complete p).trans hu.result).trans htres⟩

end Sys2Proof.Claims
end

section
/-! The command decoder (30_encoding.md R90 to R96): a word is its four fields, and the fields decide what the decoder
answers. -/

namespace Sys2Proof

/-! ### The fields of a word, as numbers (R90) -/

theorem fieldOp_toNat (w : Word) : (fieldOp w).toNat = w.toNat % 16 := by simp [fieldOp]

theorem fieldRsv0_toNat (w : Word) : (fieldRsv0 w).toNat = w.toNat / 16 % 16 := by
  simp [fieldRsv0, Nat.shiftRight_eq_div_pow]

theorem fieldNb_toNat (w : Word) : (fieldNb w).toNat = w.toNat / 256 % 64 := by
  simp [fieldNb, Nat.shiftRight_eq_div_pow]

/-- RSV1 is everything from bit 14 up, so nothing is cut off above it. -/
theorem fieldRsv1_toNat (w : Word) : (fieldRsv1 w).toNat = w.toNat / 16384 := by
  have hlt : w.toNat / 16384 < 2 ^ 18 := by omega
  simpa [fieldRsv1, Nat.shiftRight_eq_div_pow] using hlt

/-- The four fields cover a word: two words that agree in them are equal. -/
theorem word_eq_of_fields {v w : Word} (hop : fieldOp v = fieldOp w) (hrsv0 : fieldRsv0 v = fieldRsv0 w)
    (hnb : fieldNb v = fieldNb w) (hrsv1 : fieldRsv1 v = fieldRsv1 w) : v = w := by
  have hop' := congrArg BitVec.toNat hop
  have hrsv0' := congrArg BitVec.toNat hrsv0
  have hnb' := congrArg BitVec.toNat hnb
  have hrsv1' := congrArg BitVec.toNat hrsv1
  rw [fieldOp_toNat, fieldOp_toNat] at hop'
  rw [fieldRsv0_toNat, fieldRsv0_toNat] at hrsv0'
  rw [fieldNb_toNat, fieldNb_toNat] at hnb'
  rw [fieldRsv1_toNat, fieldRsv1_toNat] at hrsv1'
  exact BitVec.eq_of_toNat_eq (by omega)

/-! ### The fields of a command's word (R91, R92) -/

theorem fieldOp_encode_final (nb : BitVec 6) : fieldOp (encode (.final nb)) = 3 := by
  revert nb; decide

theorem fieldNb_encode_final (nb : BitVec 6) : fieldNb (encode (.final nb)) = nb := by
  revert nb; decide

/-- RSV0 and RSV1 of every command's word are 0 (R91). -/
theorem reservedZero (i : Instr) : Laws.ReservedZero.Statement i := by
  cases i with
  | nop => exact Laws.ReservedZero.nop
  | init => exact Laws.ReservedZero.init
  | block => exact Laws.ReservedZero.block
  | final nb => exact Laws.ReservedZero.final nb
  | clrerr => exact Laws.ReservedZero.clrerr

/-- With the reserved bits 0, OP and NB say which command a word is. -/
theorem eq_encode_of_fields {w : Word} {i : Instr} (hrsv1 : fieldRsv1 w = 0) (hrsv0 : fieldRsv0 w = 0)
    (hop : fieldOp w = fieldOp (encode i)) (hnb : fieldNb w = fieldNb (encode i)) : w = encode i := by
  obtain ⟨hi0, hi1⟩ := reservedZero i
  exact word_eq_of_fields hop (hrsv0.trans hi0.symm) hnb (hrsv1.trans hi1.symm)

/-! ### What the decoder answers (R95, R96) -/

/-- The decoder keeps every bit of a command's word. -/
theorem decode_encode (i : Instr) : decode (encode i) = .ok i := by
  cases i with
  | nop => rfl
  | init => rfl
  | block => rfl
  | final nb =>
    obtain ⟨hrsv0, hrsv1⟩ := reservedZero (.final nb)
    simp [decode, hrsv0, hrsv1, fieldOp_encode_final, fieldNb_encode_final]
  | clrerr => rfl

theorem encode_injective : Function.Injective encode := fun i j h => by
  have hok : (.ok i : Except DecodeError Instr) = .ok j := by rw [← decode_encode i, h, decode_encode]
  exact Except.ok.inj hok

/-- Everything the decoder can answer: one case for each class of Illegal words, and the words of the commands. -/
inductive DecodeCase (w : Word) : Prop where
  | reservedBits (h : fieldRsv1 w ≠ 0 ∨ fieldRsv0 w ≠ 0) (hd : decode w = .error .reservedBits)
  | reservedOp (h : 5 ≤ (fieldOp w).toNat) (hd : decode w = .error .reservedOp)
  | countNotZero (hop : (fieldOp w).toNat ≠ 3) (hnb : fieldNb w ≠ 0) (hd : decode w = .error .countNotZero)
  | legal (i : Instr) (hw : w = encode i)

/-- A command without a count is legal when NB is 0, as it is in the command's own word. -/
theorem decodeCase_of_withoutCount {w : Word} (i : Instr) (hrsv1 : fieldRsv1 w = 0) (hrsv0 : fieldRsv0 w = 0)
    (hop : (fieldOp w).toNat = (fieldOp (encode i)).toNat) (hne : (fieldOp (encode i)).toNat ≠ 3)
    (hnb : fieldNb (encode i) = 0) (hd : decode w = withoutCount w i) : DecodeCase w := by
  by_cases hw : fieldNb w = 0
  · exact .legal i (eq_encode_of_fields hrsv1 hrsv0 (BitVec.eq_of_toNat_eq hop) (hw.trans hnb.symm))
  · exact .countNotZero (hop ▸ hne) hw (hd.trans (if_neg hw))

theorem decodeCase (w : Word) : DecodeCase w := by
  by_cases hrsv : fieldRsv1 w ≠ 0 ∨ fieldRsv0 w ≠ 0
  · exact .reservedBits hrsv (if_pos hrsv)
  obtain ⟨hrsv1, hrsv0⟩ : fieldRsv1 w = 0 ∧ fieldRsv0 w = 0 := by simpa using hrsv
  match h : (fieldOp w).toNat with
  | 0 => exact decodeCase_of_withoutCount .nop hrsv1 hrsv0 h (by decide) rfl (by simp [decode, hrsv1, hrsv0, h])
  | 1 => exact decodeCase_of_withoutCount .init hrsv1 hrsv0 h (by decide) rfl (by simp [decode, hrsv1, hrsv0, h])
  | 2 => exact decodeCase_of_withoutCount .block hrsv1 hrsv0 h (by decide) rfl (by simp [decode, hrsv1, hrsv0, h])
  | 3 =>
    have hop : fieldOp w = fieldOp (encode (.final (fieldNb w))) := by
      rw [fieldOp_encode_final]
      exact BitVec.eq_of_toNat_eq h
    exact .legal _ (eq_encode_of_fields hrsv1 hrsv0 hop (fieldNb_encode_final _).symm)
  | 4 => exact decodeCase_of_withoutCount .clrerr hrsv1 hrsv0 h (by decide) rfl (by simp [decode, hrsv1, hrsv0, h])
  | n + 5 => exact .reservedOp (by omega) (by simp [decode, hrsv1, hrsv0, h])

/-- Settles O1: of the decoder's cases only the word of a command answers a command, and it answers that one. -/
theorem decodeIsInverseOfEncode : Obligations.DecodeIsInverseOfEncode := by
  intro w i
  constructor
  · intro hok
    cases decodeCase w with
    | reservedBits h hd => cases hok.symm.trans hd
    | reservedOp h hd => cases hok.symm.trans hd
    | countNotZero hop hnb hd => cases hok.symm.trans hd
    | legal j hw =>
      subst hw
      rw [Except.ok.inj (hok.symm.trans (decode_encode j))]
  · rintro rfl
    exact decode_encode i

/-- Settles O4: each word is the word of its command. -/
theorem writtenOutWordsDecode : Obligations.WrittenOutWordsDecode :=
  ⟨decode_encode .nop, decode_encode .init, decode_encode .block, decode_encode (.final 63),
    decode_encode (.final 3), decode_encode .clrerr⟩

/-! ### The number of legal words (R95) -/

/-- The commands: four without a count, and FINAL with each of the 64 counts. -/
def allInstrs : List Instr :=
  [.nop, .init, .block, .clrerr] ++ (List.finRange 64).map fun n => .final (BitVec.ofFin n)

theorem mem_allInstrs (i : Instr) : i ∈ allInstrs := by
  cases i with
  | final nb => exact List.mem_append_right _ (List.mem_map.2 ⟨nb.toFin, List.mem_finRange _, rfl⟩)
  | nop | init | block | clrerr => simp [allInstrs]

theorem allInstrs_nodup : allInstrs.Nodup := by
  have hfinal : Function.Injective fun n : Fin 64 => Instr.final (BitVec.ofFin n) := fun m n h => by simpa using h
  exact List.Nodup.append (by decide) ((List.nodup_finRange 64).map hfinal) (by simp [List.Disjoint])

/-- Settles O2: the legal words are those of the commands, and no two commands share a word. -/
theorem exactlySixtyEightLegalWords : Obligations.ExactlySixtyEightLegalWords := by
  refine ⟨allInstrs.map encode, allInstrs_nodup.map encode_injective, by simp [allInstrs], fun w => ?_⟩
  simp only [decodeIsInverseOfEncode w, List.mem_map, mem_allInstrs, true_and, eq_comm]

end Sys2Proof

namespace Sys2Proof.Claims

open Sys2Proof.Machine

/-! ### The Illegal words (R96) -/

/-- The classes of R96 in the fields of R90. -/
theorem illegalWord_iff_fields (w : Word) :
    IllegalWord w ↔ 5 ≤ (fieldOp w).toNat ∨ fieldRsv0 w ≠ 0 ∨ fieldRsv1 w ≠ 0 ∨
      ((fieldOp w).toNat ≠ 3 ∧ fieldNb w ≠ 0) := by
  simp only [IllegalWord, BitVec.toNat_ne, fieldOp_toNat, fieldRsv0_toNat, fieldNb_toNat, fieldRsv1_toNat,
    BitVec.ofNat_eq_ofNat, BitVec.toNat_ofNat, Nat.zero_mod]

theorem not_illegalWord_encode (i : Instr) : ¬ IllegalWord (encode i) := by
  obtain ⟨hrsv0, hrsv1⟩ := reservedZero i
  rw [illegalWord_iff_fields]
  cases i with
  | final nb => simp [hrsv0, hrsv1, fieldOp_encode_final]
  | nop | init | block | clrerr => decide

theorem decode_error_iff_illegalWord (w : Word) : (∃ e, decode w = .error e) ↔ IllegalWord w := by
  rw [illegalWord_iff_fields]
  cases decodeCase w with
  | reservedBits h hd => exact iff_of_true ⟨_, hd⟩ (.inr (h.elim (.inr ∘ .inl) .inl))
  | reservedOp h hd => exact iff_of_true ⟨_, hd⟩ (.inl h)
  | countNotZero hop hnb hd => exact iff_of_true ⟨_, hd⟩ (.inr (.inr (.inr ⟨hop, hnb⟩)))
  | legal i hw =>
    subst hw
    exact iff_of_false (by simp [decode_encode]) (mt (illegalWord_iff_fields _).2 (not_illegalWord_encode i))

/-- A write of a word that the decoder rejects records BUSY or ILLEGAL, unless an error is on record (60_exceptions.md
R250, R252, R255). -/
theorem performAccess_cmd_of_decode_error {w : Word} {e : DecodeError} (hd : decode w = .error e) (s : State) :
    performAccess (.write 4 0x00 w) s = .next (s.raiseError (if s.BUSY then .busy else .illegal)) := by
  rw [performAccess_cmd, issueCmd_eq, hd]
  cases s.BUSY <;> rfl

/-- Settles O3: the decoder rejects the words of R96, and the rejected word only raises an error. -/
theorem illegalWordRaisesIllegal : Obligations.IllegalWordRaisesIllegal := by
  intro w s
  refine ⟨fun hw => ?_, decode_error_iff_illegalWord w⟩
  obtain ⟨e, hd⟩ := (decode_error_iff_illegalWord w).2 hw
  exact performAccess_cmd_of_decode_error hd s

end Sys2Proof.Claims
end

section
/-! The host's loop WAIT (30_encoding.md R100): it reads STATUS until the pending command has completed. -/

namespace Sys2Proof.Machine

/-- A run from `s` gets past the WAIT, with `es` left to do: it reads STATUS words with bit 0 set, and a last one with
bit 0 clear. -/
def WaitEndsFrom (es : List Event) (s : State) : Prop :=
  ∃ n t vs v, Reaches n s t ∧ t.inbox = es ∧ t.BUSY = false ∧ t.PEND = none ∧
    t.outbox = s.outbox ++ vs ++ [v] ∧ v.getLsbD 0 = false ∧ ∀ u ∈ vs, u.getLsbD 0 = true

/-- A step before the end reads nothing, or STATUS with bit 0 set. -/
theorem WaitEndsFrom.of_step {es : List Event} {s u : State} {us : List Word} (hst : step s = .next u)
    (hout : u.outbox = s.outbox ++ us) (hus : ∀ x ∈ us, x.getLsbD 0 = true) (h : WaitEndsFrom es u) :
    WaitEndsFrom es s := by
  obtain ⟨n, t, vs, v, hr, hi, hb, hp, hvs, hv, hset⟩ := h
  refine ⟨n + 1, t, us ++ vs, v, reaches_succ hst hr, hi, hb, hp, ?_, hv, ?_⟩
  · simp [hvs, hout]
  · intro x hx
    exact (List.mem_append.1 hx).elim (hus x) (hset x)

variable {es : List Event} {s : State}

/-- A turn of WAIT reads STATUS, and WAIT stays due while BUSY = 1. -/
theorem step_of_wait (hi : s.inbox = .wait :: es) (hturn : s.PEND = none ∨ s.slack ≠ 0) :
    step s = .next { s with
      inbox := if s.BUSY then .wait :: es else es
      outbox := s.outbox ++ [s.statusWord]
      slack := s.slack - 1 } := by
  rw [step_of_inbox hi hturn, performEvent, waitTurn_eq]
  rfl

/-- With nothing pending the first read ends the WAIT. -/
theorem waitEndsFrom_of_not_busy (hp : s.PEND = none) (hb : s.BUSY = false) (hi : s.inbox = .wait :: es) :
    WaitEndsFrom es s :=
  ⟨1, _, [], s.statusWord, reaches_one (step_of_wait hi (.inl hp)), by simp [hb], hb, hp, by simp,
    s.statusWord_getLsbD_zero.trans hb, by simp⟩

/-- With a command pending, WAIT reads on until the delay has run out; then the command completes, and the next read
ends the WAIT. -/
theorem waitEndsFrom_of_pending {p : Pending} (hp : s.PEND = some p) (hb : s.BUSY = true)
    (hi : s.inbox = .wait :: es) : WaitEndsFrom es s := by
  induction hk : s.slack generalizing s with
  | zero =>
    have hend : WaitEndsFrom es (complete p s) :=
      waitEndsFrom_of_not_busy (complete_PEND p s) (complete_BUSY p s) (by rw [complete_inbox, hi])
    exact hend.of_step (us := []) (step_of_complete (State.nextMove_of_delay hp (.inl hk))) (by simp) (by simp)
  | succ k ih =>
    refine WaitEndsFrom.of_step (step_of_wait hi (.inr (by omega))) rfl ?set (ih hp hb ?inbox ?slack)
    case set => simpa using hb
    case inbox => simp [hb]
    case slack => simp [hk]

/-- Settles O44: nothing is pending, or the pending command completes on the way. -/
theorem waitEnds : Obligations.WaitEnds := by
  intro s es hinv hi
  have hbusy := hinv.busy_pend
  cases hp : s.PEND with
  | none => exact waitEndsFrom_of_not_busy hp (by simpa [hp] using hbusy) hi
  | some p => exact waitEndsFrom_of_pending hp (by simpa [hp] using hbusy) hi

end Sys2Proof.Machine
end

section
/-! The padding unit (40_padding.md): the source's padding of a whole message, the blocks of PadFinal byte by byte,
and the agreement of the two. -/

namespace Sys2Proof.Machine

/-! ### The source's padding (R110, R111) -/

theorem padZeros_lt (L : Nat) : padZeros L < 64 := by
  unfold padZeros
  omega

theorem padZeros_fills (L : Nat) : (L + 1 + padZeros L) % 64 = 56 := by
  unfold padZeros
  omega

/-- Whole blocks in front of a message do not change its number of zero bytes. -/
theorem padZeros_add_blocks (k n : Nat) : padZeros (64 * k + n) = padZeros n := by
  unfold padZeros
  omega

theorem padZeros_of_le {n : Nat} (h : n ≤ 55) : padZeros n = 55 - n := by
  unfold padZeros
  omega

/-- From 56 to 63 the zeros fill the first block and the 56 bytes before the length field of a second. -/
theorem padZeros_of_ge {n : Nat} (h : 56 ≤ n) (hn : n < 64) : padZeros n = (63 - n) + 56 := by
  unfold padZeros
  omega

theorem pad_length (m : List Byte) : (pad m).length = m.length + 9 + padZeros m.length := by
  simp only [pad, List.length_append, List.length_singleton, List.length_replicate, be64_length]
  omega

/-- Settles O55: the number of zeros is below 64 and is determined mod 64. -/
theorem paddingIsMinimalAndAligned : Obligations.PaddingIsMinimalAndAligned := by
  intro m
  have hlt := padZeros_lt m.length
  have hfills := padZeros_fills m.length
  have hlen := pad_length m
  exact ⟨hfills, fun z hz => by omega, hlen, by omega⟩

/-! ### The parts of PadFinal's blocks -/

/-- The partial block, the byte 0x80 and `z` zeros: how PadFinal's first block begins in both cases (R115, R117). -/
def markedPartial (MSG : Vector Word 16) (nb : BitVec 6) (z : Nat) : List Byte :=
  partialBlock MSG nb ++ [0x80] ++ List.replicate z 0x00

theorem padFinal_of_le (MSG : Vector Word 16) {nb : BitVec 6} (lenf : Len) (h : nb.toNat ≤ 55) :
    padFinal MSG nb lenf = [markedPartial MSG nb (55 - nb.toNat) ++ be64 lenf] := if_pos h

theorem padFinal_of_ge (MSG : Vector Word 16) {nb : BitVec 6} (lenf : Len) (h : 56 ≤ nb.toNat) :
    padFinal MSG nb lenf = [markedPartial MSG nb (63 - nb.toNat), List.replicate 56 0x00 ++ be64 lenf] :=
  if_neg (by omega)

section
variable (MSG : Vector Word 16) (nb : BitVec 6) (z : Nat)

theorem markedPartial_length : (markedPartial MSG nb z).length = nb.toNat + 1 + z := by
  simp [markedPartial, Nat.add_assoc, Nat.add_comm]

theorem partialBlock_getElem (k : Fin 64) (hk : k.val < nb.toNat) :
    (partialBlock MSG nb)[k.val]'(by simpa using hk) = wordByte MSG[k.val / 4] (k.val % 4) := by
  simp only [partialBlock, List.getElem_take]
  exact msgBytes_getElem MSG k.val k.isLt

theorem markedPartial_getD_message (k : Fin 64) (hk : k.val < nb.toNat) :
    (markedPartial MSG nb z).getD k.val 0 = wordByte MSG[k.val / 4] (k.val % 4) := by
  have hlen : k.val < (partialBlock MSG nb).length := by simpa using hk
  rw [markedPartial, List.append_assoc, List.getD_append _ _ _ _ hlen, List.getD_eq_getElem _ _ hlen,
    partialBlock_getElem MSG nb k hk]

theorem markedPartial_getD_mark : (markedPartial MSG nb z).getD nb.toNat 0 = 0x80 := by
  rw [markedPartial, List.append_assoc, List.getD_append_right _ _ _ _ (by simp)]
  simp

theorem markedPartial_getD_zero {k : Nat} (hk : nb.toNat < k) : (markedPartial MSG nb z).getD k 0 = 0 := by
  rw [markedPartial, List.getD_append_right _ _ _ _ (by simpa using hk), List.getD_eq_getElem?_getD,
    List.getElem?_getD_replicate_default_eq]

end

/-- The length field after 56 bytes takes the places 56 to 63, most significant byte first. -/
theorem getD_append_be64_toNat {A : List Byte} (hA : A.length = 56) (lenf : Len) {k : Nat} (hk : k < 8) :
    ((A ++ be64 lenf).getD (56 + k) 0).toNat = lenf.toNat / 2 ^ (56 - 8 * k) % 256 := by
  have hlen : k < (be64 lenf).length := by simpa using hk
  rw [List.getD_append_right _ _ _ _ (by omega), hA, Nat.add_sub_cancel_left, List.getD_eq_getElem _ _ hlen,
    be64_getElem_toNat lenf k hk]

/-- Settles O56: the message, the mark and the zeros are the first 56 bytes, and the length field follows. -/
theorem oneBlockPadding : Obligations.OneBlockPadding := by
  intro MSG nb lenf h
  have hlen : (markedPartial MSG nb (55 - nb.toNat)).length = 56 := by
    rw [markedPartial_length]
    omega
  have hfront : ∀ k < 56, (markedPartial MSG nb (55 - nb.toNat) ++ be64 lenf).getD k 0 =
      (markedPartial MSG nb (55 - nb.toNat)).getD k 0 :=
    fun k hk => List.getD_append _ _ _ _ (hlen ▸ hk)
  refine ⟨_, padFinal_of_le MSG lenf h, by simp [hlen], fun k hk => ?_, ?_, fun k hk hk56 => ?_,
    fun k hk => getD_append_be64_toNat hlen lenf hk⟩
  · rw [hfront k (by omega), markedPartial_getD_message MSG nb _ k hk]
  · rw [hfront _ (by omega), markedPartial_getD_mark]
  · rw [hfront k hk56, markedPartial_getD_zero MSG nb _ hk]

/-- Settles O57: the message, the mark and zeros fill the first block, zeros and the length field the second. -/
theorem twoBlockPadding : Obligations.TwoBlockPadding := by
  intro MSG nb lenf h
  have hlen : (markedPartial MSG nb (63 - nb.toNat)).length = 64 := by
    have := nb.isLt
    rw [markedPartial_length]
    omega
  have hzeros : (List.replicate 56 (0 : Byte)).length = 56 := List.length_replicate
  refine ⟨_, _, padFinal_of_ge MSG lenf h, hlen, by simp, markedPartial_getD_message MSG nb _,
    markedPartial_getD_mark MSG nb _, fun k hk _ => markedPartial_getD_zero MSG nb _ hk, fun k hk => ?_,
    fun k hk => getD_append_be64_toNat hzeros lenf hk⟩
  rw [List.getD_append _ _ _ _ (hzeros.symm ▸ hk), List.getD_replicate _ hk]

/-! ### What PadFinal reads of MSG (R118) -/

theorem partialBlock_congr {M N : Vector Word 16} {nb : BitVec 6}
    (h : ∀ k : Fin 64, k.val < nb.toNat → wordByte M[k.val / 4] (k.val % 4) = wordByte N[k.val / 4] (k.val % 4)) :
    partialBlock M nb = partialBlock N nb := by
  refine List.ext_getElem (by simp) fun k hM hN => ?_
  have hk : k < nb.toNat := by simpa using hM
  have hbyte := h ⟨k, hk.trans nb.isLt⟩ hk
  rwa [← partialBlock_getElem M nb _ hk, ← partialBlock_getElem N nb _ hk] at hbyte

/-- Settles O58: PadFinal reads MSG only through the partial block. -/
theorem paddingIgnoresBytesFromTheCountOn : Obligations.PaddingIgnoresBytesFromTheCountOn := by
  intro M N nb lenf h
  rw [padFinal, padFinal, partialBlock_congr h]

/-! ### Streaming padding (R119) -/

/-- In both cases PadFinal's bytes are those of the source's padding of the partial block, but for the length field. -/
theorem padFinal_flatten (MSG : Vector Word 16) (nb : BitVec 6) (lenf : Len) :
    (padFinal MSG nb lenf).flatten = markedPartial MSG nb (padZeros nb.toNat) ++ be64 lenf := by
  rcases Nat.lt_or_ge 55 nb.toNat with h | h
  · simp [padFinal_of_ge MSG lenf h, padZeros_of_ge h nb.isLt, markedPartial, List.replicate_add]
  · simp [padFinal_of_le MSG lenf h, padZeros_of_le h]

/-- LEN after `k` BLOCKs gives the length field of the whole message (R114). -/
theorem lengthField_after_blocks (k : Nat) (nb : BitVec 6) :
    lengthField (BitVec.ofNat 64 (512 * k)) nb = BitVec.ofNat 64 (8 * (64 * k + nb.toNat)) := by
  apply BitVec.eq_of_toNat_eq
  rw [lengthField_toNat, BitVec.toNat_ofNat, BitVec.toNat_ofNat]
  omega

theorem length_flatten_blocks {Ms : List (List Byte)} (h : ∀ B ∈ Ms, B.length = 64) :
    Ms.flatten.length = 64 * Ms.length := by
  rw [List.length_flatten, List.map_congr_left h, List.map_const', List.sum_replicate, smul_eq_mul, Nat.mul_comm]

/-- Settles O59: whole blocks change neither the number of zeros nor what follows them but for the length field. -/
theorem streamingPaddingIsSourcePadding : Obligations.StreamingPaddingIsSourcePadding := by
  intro Ms MSG nb hMs
  have hlen : (Ms.flatten ++ partialBlock MSG nb).length = 64 * Ms.length + nb.toNat := by
    rw [List.length_append, length_flatten_blocks hMs, partialBlock_length]
  rw [padFinal_flatten, lengthField_after_blocks, pad, hlen, padZeros_add_blocks]
  simp only [markedPartial, List.append_assoc]

end Sys2Proof.Machine
end

section
/-! The message schedule expander (41_schedule.md) and the linearity over XOR of the four sigma functions
(42_compression.md R150, R152). -/

namespace Sys2Proof.Machine

/-! ### Linearity over XOR (R131, R132, R150, R152) -/

/-- `f` is linear over XOR. -/
def XorLinear (f : Word → Word) : Prop := ∀ x y, f (x ^^^ y) = f x ^^^ f y

theorem XorLinear.xor {f g : Word → Word} (hf : XorLinear f) (hg : XorLinear g) :
    XorLinear fun x => f x ^^^ g x := by
  intro x y
  simp only [hf x y, hg x y]
  ac_rfl

theorem xorLinear_shr (n : Nat) : XorLinear (shr · n) := fun x y => BitVec.ushiftRight_xor_distrib x y n

/-- A rotation moves the bits, so it is linear as XOR is bit by bit. -/
theorem xorLinear_rotr {n : Nat} (hn : n < 32) : XorLinear (rotr · n) := by
  intro x y
  refine BitVec.eq_of_getLsbD_eq fun i hi => ?_
  simp only [BitVec.getLsbD_xor, getLsbD_rotr _ hn hi]

theorem xorLinear_smallSigma0 : XorLinear smallSigma0 :=
  ((xorLinear_rotr (by decide)).xor (xorLinear_rotr (by decide))).xor (xorLinear_shr 3)

theorem xorLinear_smallSigma1 : XorLinear smallSigma1 :=
  ((xorLinear_rotr (by decide)).xor (xorLinear_rotr (by decide))).xor (xorLinear_shr 10)

theorem xorLinear_bigSigma1 : XorLinear bigSigma1 :=
  ((xorLinear_rotr (by decide)).xor (xorLinear_rotr (by decide))).xor (xorLinear_rotr (by decide))

theorem xorLinear_bigSigma0 : XorLinear bigSigma0 :=
  ((xorLinear_rotr (by decide)).xor (xorLinear_rotr (by decide))).xor (xorLinear_rotr (by decide))

/-- Settles O48: the values on 1 are computed, and XORs of rotations and shifts are linear. -/
theorem sigmasAreLinear : Obligations.SigmasAreLinear :=
  ⟨by decide, fun x y => ⟨xorLinear_smallSigma0 x y, xorLinear_smallSigma1 x y, xorLinear_bigSigma1 x y,
    xorLinear_bigSigma0 x y⟩⟩

/-! ### The parse (R130) -/

theorem append_wordByte (w : Word) : wordByte w 0 ++ wordByte w 1 ++ wordByte w 2 ++ wordByte w 3 = w := by
  have h01 : wordByte w 0 ++ wordByte w 1 = w.extractLsb' 16 16 :=
    BitVec.extractLsb'_append_extractLsb'_eq_extractLsb' rfl
  have h012 : w.extractLsb' 16 16 ++ wordByte w 2 = w.extractLsb' 8 24 :=
    BitVec.extractLsb'_append_extractLsb'_eq_extractLsb' rfl
  have h0123 : w.extractLsb' 8 24 ++ wordByte w 3 = w.extractLsb' 0 32 :=
    BitVec.extractLsb'_append_extractLsb'_eq_extractLsb' rfl
  rw [h01, h012, h0123, BitVec.extractLsb'_eq_self]

/-- Byte k of word j is byte 4j + k of the block. -/
theorem msgBytes_getD (MSG : Vector Word 16) (j : Fin 16) {k : Nat} (hk : k < 4) :
    (msgBytes MSG).getD (4 * j.val + k) 0 = wordByte MSG[j] k := by
  have hlen : 4 * j.val + k < 64 := by omega
  have hword : (4 * j.val + k) / 4 = j.val := by omega
  have hbyte : (4 * j.val + k) % 4 = k := by omega
  rw [List.getD_eq_getElem _ _ (by simpa using hlen), msgBytes_getElem MSG _ hlen]
  simp [hword, hbyte]

theorem wordOf_msgBytes (MSG : Vector Word 16) (j : Fin 16) : wordOf (msgBytes MSG) j.val = MSG[j] := by
  have h0 : (msgBytes MSG).getD (4 * j.val) 0 = wordByte MSG[j] 0 := msgBytes_getD MSG j (k := 0) (by decide)
  rw [wordOf, h0, msgBytes_getD MSG j (by decide), msgBytes_getD MSG j (by decide),
    msgBytes_getD MSG j (by decide), append_wordByte]

theorem parseInto_getElem (W : Vector Word 64) (B : List Byte) (j : Fin 16) :
    (parseInto W B)[j.val] = wordOf B j.val := by
  simp [parseInto]

/-! ### The recurrence (R133, R134) -/

/-- The word that the recurrence gives for W[i + 16]. -/
def recurrenceWord (W : Vector Word 64) (i : Fin 48) : Word :=
  ((smallSigma1 W[i.val + 14] + W[i.val + 9]) + smallSigma0 W[i.val + 1]) + W[i.val]

/-- The recurrence reads only words below the one it gives. -/
theorem recurrenceWord_congr {V W : Vector Word 64} {i : Fin 48} (h : AgreeBelow (i.val + 16) V W) :
    recurrenceWord V i = recurrenceWord W i := by
  rw [recurrenceWord, h (i.val + 14) (by omega) (by omega), h (i.val + 9) (by omega) (by omega),
    h (i.val + 1) (by omega) (by omega), h i.val (by omega) (by omega), recurrenceWord]

theorem expandWord_getElem_same (W : Vector Word 64) (i : Fin 48) :
    (expandWord W i)[i.val + 16] = recurrenceWord W i := Vector.getElem_set_self _

theorem expandWord_agree_self (W : Vector Word 64) (i : Fin 48) : AgreeBelow (i.val + 16) (expandWord W i) W :=
  fun _ hj hlt => Vector.getElem_set_ne _ hj (by omega)

/-- After `n` turns of the expander the first 16 words are the block's, and the next `n` follow the recurrence. -/
structure ExpandedFor (n : Nat) (B : List Byte) (W : Vector Word 64) : Prop where
  parsed : ∀ j : Fin 16, W[j.val] = wordOf B j.val
  recurrence : ∀ i : Fin 48, i.val < n → W[i.val + 16] = recurrenceWord W i

theorem expandedFor_parseInto (W : Vector Word 64) (B : List Byte) : ExpandedFor 0 B (parseInto W B) where
  parsed := parseInto_getElem W B
  recurrence i hi := absurd hi (Nat.not_lt_zero i.val)

/-- A turn of the expander gives one more word of the recurrence and keeps those before it. -/
theorem ExpandedFor.succ {B : List Byte} {W : Vector Word 64} {i : Fin 48} (h : ExpandedFor i.val B W) :
    ExpandedFor (i.val + 1) B (expandWord W i) where
  parsed j := (expandWord_agree_self W i j.val (by omega) (by omega)).trans (h.parsed j)
  recurrence l hl := by
    have hagree : AgreeBelow (l.val + 16) (expandWord W i) W :=
      fun j hj hlt => expandWord_agree_self W i j hj (by omega)
    rw [recurrenceWord_congr hagree]
    rcases Nat.lt_succ_iff_lt_or_eq.1 hl with hlt | heq
    · rw [expandWord_agree_self W i _ _ (by omega), h.recurrence l hlt]
    · obtain rfl := Fin.ext heq
      exact expandWord_getElem_same W l

theorem expandedFor_foldl_take {B : List Byte} {W : Vector Word 64} (h : ExpandedFor 0 B W) {n : Nat}
    (hn : n ≤ 48) : ExpandedFor n B (((List.finRange 48).take n).foldl expandWord W) := by
  induction n with
  | zero => exact h
  | succ n ih =>
    have hlen : n < (List.finRange 48).length := by simpa using hn
    rw [List.take_succ_eq_append_getElem hlen, List.foldl_append, List.getElem_finRange]
    exact (ih (by omega)).succ (i := ⟨n, hn⟩)

theorem expandedFor_expand (B : List Byte) : ExpandedFor 48 B (expand B) := by
  unfold expand expandInto
  rw [← List.take_of_length_le (List.length_finRange (n := 48)).le]
  exact expandedFor_foldl_take (expandedFor_parseInto _ B) (Nat.le_refl 48)

/-- Settles O52: the 48 turns leave the parsed words and give the others by the recurrence. -/
theorem scheduleFollowsTheRecurrence : Obligations.ScheduleFollowsTheRecurrence := by
  intro MSG B
  refine ⟨fun j => ?_, (expandedFor_expand B).parsed, fun i => (expandedFor_expand B).recurrence i i.isLt⟩
  rw [(expandedFor_expand (msgBytes MSG)).parsed j, wordOf_msgBytes]

end Sys2Proof.Machine
end

section
/-! The round function: Ch and Maj bit by bit, and the eight registers that a round writes (42_compression.md R151,
R153, R156). -/

namespace Sys2Proof.Machine

/-- Of Ch's two terms, the one that the bit of `e` selects against is 0. -/
theorem choose_getLsbD (e f g : Word) {i : Nat} (hi : i < 32) :
    (choose e f g).getLsbD i = if e.getLsbD i then f.getLsbD i else g.getLsbD i := by
  simp only [choose, BitVec.getLsbD_xor, BitVec.getLsbD_and, BitVec.getLsbD_not]
  cases e.getLsbD i with
  | false => simp [hi]
  | true => simp

theorem majority_getLsbD (a b c : Word) (i : Nat) :
    (majority a b c).getLsbD i =
      (((a.getLsbD i && b.getLsbD i) ^^ (a.getLsbD i && c.getLsbD i)) ^^ (b.getLsbD i && c.getLsbD i)) := by
  simp only [majority, BitVec.getLsbD_xor, BitVec.getLsbD_and]

/-- Of three bits, one pair or all three pairs are both 1 exactly when at least two of the bits are. -/
theorem xor_of_pairs_iff_two_le (p q r : Bool) :
    (((p && q) ^^ (p && r)) ^^ (q && r)) = true ↔ 2 ≤ p.toNat + q.toNat + r.toNat := by
  revert p q r
  decide

/-- Settles O49: Ch by the bit of `e`, and Maj by how many of its three pairs of bits are both 1. -/
theorem chooseAndMajorityBitByBit : Obligations.ChooseAndMajorityBitByBit := by
  intro x y z i hi
  refine ⟨choose_getLsbD x y z hi, ?_⟩
  rw [majority_getLsbD]
  exact xor_of_pairs_iff_two_le _ _ _

/-- Settles O50: T1 and T2 are read from the registers at the round's start, as the definitions of the round say. -/
theorem roundWritesAllRegisters : Obligations.RoundWritesAllRegisters := by
  intro k w a b c d e f g h
  simp only [compressRound, temp1, temp2]

end Sys2Proof.Machine
end

section
/-! The accumulate and the digest (43_accumulate_digest.md R180, R182), and how long the digest stays (R183). -/

namespace Sys2Proof.Machine

/-! ### The accumulate -/

theorem accumulate_getElem (H : Vector Word 8) (r : Working) (i : Fin 8) :
    (accumulate H r)[i] = H[i] + r.toVector[i] := by
  simp [accumulate]

/-- The working registers stand in the order a to h (10_state.md R22). -/
theorem Working.toVector_getElem (r : Working) (i : Fin 8) :
    r.toVector[i] = [r.a, r.b, r.c, r.d, r.e, r.f, r.g, r.h][i.val] := rfl

/-- Settles O53: the sum of two words is their sum mod 2^32. -/
theorem accumulateAddsWordByWord : Obligations.AccumulateAddsWordByWord := by
  intro H r i
  rw [accumulate_getElem, BitVec.toNat_add, Working.toVector_getElem]

/-! ### The digest -/

/-- Where every piece has `n` elements, element `k` of piece `i` stands at `n * i + k`. -/
theorem getElem?_flatMap_of_length {α β : Type} {f : α → List β} {n : Nat} (hf : ∀ x, (f x).length = n)
    {k : Nat} (hk : k < n) (l : List α) (i : Nat) :
    (l.flatMap f)[n * i + k]? = l[i]?.bind fun x => (f x)[k]? := by
  induction l generalizing i with
  | nil => rfl
  | cons x xs ih =>
    rw [List.flatMap_cons]
    cases i with
    | zero => simp [List.getElem?_append_left, hf, hk]
    | succ i =>
      have hpos : n * (i + 1) + k = (f x).length + (n * i + k) := by rw [hf, Nat.mul_succ]; omega
      rw [hpos, List.getElem?_append_right (Nat.le_add_right _ _), Nat.add_sub_cancel_left, ih]
      rfl

/-- Byte k of word i is byte 4i + k of the digest. -/
theorem digest_getElem? (H : Vector Word 8) (i : Fin 8) (k : Fin 4) :
    (digest H)[4 * i.val + k.val]? = some (wordByte H[i] k.val) := by
  rw [digest, getElem?_flatMap_of_length (fun i => be32_length H[i]) k.isLt]
  simp [be32]

/-- Settles O54: the digest's bytes are those of the words, each as a number. -/
theorem digestBytesAreBigEndian : Obligations.DigestBytesAreBigEndian := by
  intro H
  refine ⟨digest_length H, fun i k => ?_⟩
  rw [List.getD_eq_getElem?_getD, digest_getElem?, Option.getD_some, wordByte_toNat]

end Sys2Proof.Machine

namespace Sys2Proof.Claims

open Sys2Proof.Machine

/-! ### The digest stays (R183; 44_commands.md R228) -/

variable {s t : State}

/-- A completion is due only in ACTIVE (44_commands.md R201). -/
theorem PHASE_active_of_complete {p : Pending} (hinv : s.Inv) (hm : s.nextMove = .complete p) : s.PHASE = .active := by
  obtain ⟨hp, -⟩ := State.nextMove_complete hm
  exact hinv.pend_active (by simp [hp])

/-- With no completion, INIT or reset a step keeps H, LEN and PHASE. -/
theorem sameResult_of_step (hst : step s = .next t) (hcomplete : ∀ p, s.nextMove ≠ .complete p)
    (hinit : ¬ TakesCommand s .init) (hreset : ¬ IsReset s) : SameResult s t := by
  cases registerStep_of_step hst with
  | init h ht => exact absurd h hinit
  | completion p h ht => exact absurd h (hcomplete p)
  | reset h ht => exact absurd h hreset
  | message j v h ht => exact ht ▸ ⟨rfl, rfl, rfl⟩
  | other h =>
    obtain ⟨hH, hLEN, -, hPHASE⟩ := h
    exact ⟨hH, hLEN, hPHASE⟩

/-- A step outside ACTIVE takes no command into the slot. -/
theorem BUSY_of_step_of_not_active (hinv : s.Inv) (hb : s.BUSY = false) (hphase : s.PHASE ≠ .active)
    (hst : step s = .next t) : t.BUSY = false := by
  have hs : s.PEND = none := by simpa [hb] using hinv.busy_pend
  have ht : t.PEND = none := by
    by_contra hpend
    obtain ⟨hactive, -⟩ := onlyCommandsStartActivity s t hst hs hpend
    exact hphase hactive
  simpa [ht] using (everyStepKeepsTheInvariant s t hinv hst).busy_pend

/-- Settles O37: in DONE nothing completes and no command is taken into the slot. -/
theorem digestStaysUntilInitOrReset : Obligations.DigestStaysUntilInitOrReset := by
  intro s t hinv ⟨hdone, hb⟩ hst hinit hreset
  have hphase : s.PHASE ≠ .active := by simp [hdone]
  have hcomplete : ∀ p, s.nextMove ≠ .complete p := fun _ hm => hphase (PHASE_active_of_complete hinv hm)
  obtain ⟨hH, hLEN, hPHASE⟩ := sameResult_of_step hst hcomplete hinit hreset
  exact ⟨hH, hLEN, hPHASE.trans hdone, BUSY_of_step_of_not_active hinv hb hphase hst⟩

end Sys2Proof.Claims
end

section
/-! Each command, from its issue within the write to its completion (44_commands.md R202, R205, R206, R210, R211, R215,
R216), and what an issue leaves unchanged. -/

namespace Sys2Proof.Machine

open Sys2Proof.Claims

/-! ### Commands that take their effect within the write -/

/-- Settles O13: NOP's effect is the state itself. -/
theorem nopCompletes : Obligations.NopCompletes :=
  ⟨rfl, fun _ => ⟨exec_of_not_busy .nop, exec_of_busy .nop⟩⟩

/-- STATUS after INIT: PHASE = ACTIVE, no error (44_commands.md R205). -/
theorem State.statusWord_startComputation {s : State} (hb : s.BUSY = false) :
    s.startComputation.statusWord = 0x00000002 := by
  simp [State.statusWord, hb, Phase.bits, ErrCode.bits]

/-- Settles O14: what INIT writes does not depend on what stood there before. -/
theorem initCompletes : Obligations.InitCompletes := by
  refine ⟨rfl, fun s => ⟨exec_of_not_busy .init, exec_of_busy .init, fun t hb ht => ?_⟩⟩
  obtain rfl : s.startComputation = t := Host.Outcome.next.inj ((exec_of_not_busy .init hb).symm.trans ht)
  exact ⟨exec_of_not_busy .init (s := s.startComputation) hb, State.statusWord_startComputation hb⟩

/-- Clearing the error changes nothing when none is recorded (44_commands.md R206). -/
theorem State.clearError_of_no_error {s : State} (herr : s.ERR = false) (hcode : s.ERRCODE = .none) :
    s.clearError = s := by
  rw [State.clearError, ← herr, ← hcode]

/-- Settles O15: CLRERR's effect is the cleared error. -/
theorem clrerrCompletes : Obligations.ClrerrCompletes := by
  refine ⟨rfl, fun s => ⟨exec_of_not_busy .clrerr, exec_of_busy .clrerr, fun hb herr hcode => ?_⟩⟩
  exact (exec_of_not_busy .clrerr hb).trans (congrArg _ (State.clearError_of_no_error herr hcode))

/-! ### The issue of BLOCK and FINAL -/

theorem State.issueInActive_of_active (p : Pending) {s : State} (h : s.PHASE = .active) :
    s.issueInActive p = s.setPending p := if_pos h

theorem State.issueInActive_of_not_active (p : Pending) {s : State} (h : s.PHASE ≠ .active) :
    s.issueInActive p = s.raiseError .sequence := if_neg h

theorem exec_pendingInstr_of_active (p : Pending) {s : State} (hb : s.BUSY = false) (hphase : s.PHASE = .active) :
    exec (pendingInstr p) s = .next (s.setPending p) := by
  rw [exec_of_not_busy _ hb, commandEffect_pendingInstr, State.issueInActive_of_active p hphase]

theorem exec_pendingInstr_of_not_active (p : Pending) {s : State} (hb : s.BUSY = false) (hphase : s.PHASE ≠ .active) :
    exec (pendingInstr p) s = .next (s.raiseError .sequence) := by
  rw [exec_of_not_busy _ hb, commandEffect_pendingInstr, State.issueInActive_of_not_active p hphase]

/-- Settles O16: in ACTIVE the slot takes BLOCK. -/
theorem blockIssueCompletes : Obligations.BlockIssueCompletes :=
  ⟨rfl, fun _ => ⟨fun hb hphase => ⟨_, _, exec_pendingInstr_of_active .block hb hphase⟩, exec_of_busy .block,
    exec_pendingInstr_of_not_active .block⟩⟩

theorem toNat_encode_final (nb : BitVec 6) : (encode (.final nb)).toNat = 0x00000003 + 256 * nb.toNat := by
  revert nb; decide

/-- Settles O17: in ACTIVE the slot takes FINAL with its count. -/
theorem finalIssueCompletes : Obligations.FinalIssueCompletes :=
  fun nb => ⟨toNat_encode_final nb, fun _ =>
    ⟨fun hb hphase => ⟨_, _, exec_pendingInstr_of_active (.final nb) hb hphase⟩, exec_of_busy (.final nb),
      exec_pendingInstr_of_not_active (.final nb)⟩⟩

/-! ### The completion of BLOCK and FINAL -/

/-- BLOCK leaves in W[j], j < 16, the words of MSG (44_commands.md R211). -/
theorem complete_block_W (s : State) (j : Fin 16) : (complete .block s).W[j.val] = s.MSG[j] := by
  have hW : (complete .block s).W = expand (msgBytes s.MSG) := by rw [complete, completeBlock_eq]
  obtain ⟨hparsed, -⟩ := scheduleFollowsTheRecurrence s.MSG []
  simpa only [hW] using hparsed j

/-- Settles O18: the completion is the step, field by field. -/
theorem blockCompletionCompresses : Obligations.BlockCompletionCompresses := fun s hm =>
  ⟨complete .block s, step_of_complete hm, complete_H .block s, complete_LEN .block s, complete_PEND .block s,
    complete_BUSY .block s, complete_MSG .block s, complete_PHASE .block s, complete_ERR .block s,
    complete_ERRCODE .block s, complete_inbox .block s, complete_outbox .block s, complete_slack .block s,
    complete_ticks .block s, complete_block_W s⟩

/-- FINAL hashes the blocks that PadFinal gives for the LEN it leaves (44_commands.md R216). -/
theorem complete_final_H (nb : BitVec 6) (s : State) :
    (complete (.final nb) s).H = (padFinal s.MSG nb (complete (.final nb) s).LEN).foldl compressBlock s.H := by
  rw [complete_H, complete_LEN]
  rfl

/-- Settles O19: the completion is the step, field by field. -/
theorem finalCompletionPadsAndCompresses : Obligations.FinalCompletionPadsAndCompresses := by
  intro s nb hm
  have hLEN : (complete (.final nb) s).LEN.toNat = (s.LEN.toNat + 8 * nb.toNat) % 2 ^ 64 := by
    rw [complete_LEN, completedLen_final_toNat]
  exact ⟨complete (.final nb) s, step_of_complete hm, hLEN, complete_final_H nb s, complete_MSG (.final nb) s,
    complete_PHASE (.final nb) s, complete_PEND (.final nb) s, complete_BUSY (.final nb) s,
    complete_ERR (.final nb) s, complete_ERRCODE (.final nb) s, complete_inbox (.final nb) s,
    complete_outbox (.final nb) s, complete_slack (.final nb) s, complete_ticks (.final nb) s⟩

/-! ### From the issue to the completion -/

/-- A command just taken into the slot completes next when no event is left (log 5). -/
theorem step_setPending_of_no_event (p : Pending) {s : State} (hi : s.inbox = []) :
    step (s.setPending p) = .next (complete p (s.setPending p)) :=
  step_of_complete (State.nextMove_of_delay rfl (.inr hi))

/-- Settles O20: the issue keeps the registers that the completion reads. -/
theorem blockRunsFromIssueToCompletion : Obligations.BlockRunsFromIssueToCompletion := by
  intro s hb hphase hi
  refine ⟨s.setPending .block, complete .block (s.setPending .block), exec_pendingInstr_of_active .block hb hphase,
    step_setPending_of_no_event .block hi, rfl, ⟨rfl, rfl, rfl, rfl⟩, ?_⟩
  simp [completedH, completedLen, completedMsg, completedPhase, hphase]

/-- Settles O21: the issue keeps the registers that the completion reads, and PadFinal gives one block or two. -/
theorem finalRunsFromIssueToCompletion : Obligations.FinalRunsFromIssueToCompletion := by
  intro s nb hb hphase hi
  have hH := complete_final_H nb (s.setPending (.final nb))
  refine ⟨s.setPending (.final nb), complete (.final nb) (s.setPending (.final nb)),
    exec_pendingInstr_of_active (.final nb) hb hphase, step_setPending_of_no_event (.final nb) hi, rfl,
    ⟨rfl, rfl, rfl, rfl⟩, fun hle => ?one, fun hge => ?two, ?registers⟩
  case one =>
    rw [hH, State.setPending_MSG, padFinal_of_le _ _ hle]
    exact ⟨_, rfl, rfl⟩
  case two =>
    rw [hH, State.setPending_MSG, padFinal_of_ge _ _ hge]
    exact ⟨_, _, rfl, rfl⟩
  case registers => simp [completedLen, lengthField, completedMsg, completedPhase]

/-! ### What an issue leaves unchanged -/

/-- No command writes a..h, W or RND, or moves the host's events at its issue. -/
theorem commandEffect_frame (i : Instr) (s : State) :
    SameHidden s (commandEffect i s) ∧ (commandEffect i s).inbox = s.inbox ∧
      (commandEffect i s).outbox = s.outbox := by
  have issue (p : Pending) : SameHidden s (s.issueInActive p) ∧ (s.issueInActive p).inbox = s.inbox ∧
      (s.issueInActive p).outbox = s.outbox := by
    obtain ⟨-, -, -, -, hwork, hW, hRND, hinbox, houtbox⟩ := s.issueInActive_frame p
    exact ⟨⟨hwork, hW, hRND⟩, hinbox, houtbox⟩
  cases i with
  | nop => exact ⟨⟨rfl, rfl, rfl⟩, rfl, rfl⟩
  | init => exact ⟨⟨rfl, rfl, rfl⟩, rfl, rfl⟩
  | block => exact issue .block
  | final nb => exact issue (.final nb)
  | clrerr => exact ⟨⟨rfl, rfl, rfl⟩, rfl, rfl⟩

/-- Only BLOCK and FINAL touch the slot and the draw of a delay. -/
theorem commandEffect_samePending {i : Instr} (hblock : i ≠ .block) (hfinal : ∀ nb, i ≠ .final nb) (s : State) :
    (commandEffect i s).PEND = s.PEND ∧ (commandEffect i s).BUSY = s.BUSY ∧ (commandEffect i s).slack = s.slack ∧
      (commandEffect i s).ticks = s.ticks := by
  cases i with
  | nop => exact ⟨rfl, rfl, rfl, rfl⟩
  | init => exact ⟨rfl, rfl, rfl, rfl⟩
  | block => exact absurd rfl hblock
  | final nb => exact absurd rfl (hfinal nb)
  | clrerr => exact ⟨rfl, rfl, rfl, rfl⟩

/-- Only INIT and CLRERR clear a recorded error. -/
theorem commandEffect_keepsError {i : Instr} (hinit : i ≠ .init) (hclrerr : i ≠ .clrerr) (s : State) :
    KeepsError s (commandEffect i s) := by
  cases i with
  | nop => exact fun h => ⟨h, rfl⟩
  | init => exact absurd rfl hinit
  | block => exact issueInActive_keepsError .block s
  | final nb => exact issueInActive_keepsError (.final nb) s
  | clrerr => exact absurd rfl hclrerr

/-- Settles O22: an issue is the BUSY error, which writes only ERR and ERRCODE, or the command's effect. -/
theorem commandIssueFrame : Obligations.CommandIssueFrame := by
  intro i s t hst
  cases hb : s.BUSY with
  | true =>
    obtain rfl : s.raiseError .busy = t := Host.Outcome.next.inj ((exec_of_busy i hb).symm.trans hst)
    exact ⟨⟨rfl, rfl, rfl⟩, rfl, rfl, fun _ => ⟨rfl, rfl, rfl, rfl⟩, fun _ _ => ⟨rfl, hb, rfl, rfl⟩,
      fun _ _ => raiseError_keepsError .busy s⟩
  | false =>
    obtain rfl : commandEffect i s = t := Host.Outcome.next.inj ((exec_of_not_busy i hb).symm.trans hst)
    obtain ⟨hhidden, hinbox, houtbox⟩ := commandEffect_frame i s
    exact ⟨hhidden, hinbox, houtbox, fun hi => commandEffect_sameRegisters hi s,
      fun hblock hfinal => hb ▸ commandEffect_samePending hblock hfinal s,
      fun hinit hclrerr => commandEffect_keepsError hinit hclrerr s⟩

end Sys2Proof.Machine
end

section
/-! A pending command completes within its delay, whatever the host does meanwhile, unless a reset abandons it
(44_commands.md R221, R222; 70_reset_and_hazards.md R281). -/

namespace Sys2Proof.Machine

open Sys2Proof.Claims

/-! ### What a completion does not read -/

/-- Any recorded error and any surroundings in the place of those of `s`. -/
def State.withErrorAndHost (err : Bool) (code : ErrCode) (inbox : List Event) (outbox : List Word) (slack : Nat)
    (s : State) : State :=
  { s with ERR := err, ERRCODE := code, inbox := inbox, outbox := outbox, slack := slack }

theorem EqualButErrorAndHost.exists_withErrorAndHost {s t : State} (h : EqualButErrorAndHost s t) :
    ∃ err code inbox outbox slack, t = s.withErrorAndHost err code inbox outbox slack :=
  ⟨t.ERR, t.ERRCODE, t.inbox, t.outbox, t.slack, h⟩

section
variable (err : Bool) (code : ErrCode) (inbox : List Event) (outbox : List Word) (slack : Nat)

theorem State.compressInto_withErrorAndHost (B : List Byte) (s : State) :
    (s.withErrorAndHost err code inbox outbox slack).compressInto B =
      (s.compressInto B).withErrorAndHost err code inbox outbox slack := by
  rw [State.compressInto_eq, State.compressInto_eq]
  rfl

theorem State.compressAll_withErrorAndHost (Bs : List (List Byte)) (s : State) :
    Bs.foldl (fun t B => t.compressInto B) (s.withErrorAndHost err code inbox outbox slack) =
      (Bs.foldl (fun t B => t.compressInto B) s).withErrorAndHost err code inbox outbox slack := by
  induction Bs generalizing s with
  | nil => rfl
  | cons B Bs ih => rw [List.foldl_cons, State.compressInto_withErrorAndHost, ih, List.foldl_cons]

theorem complete_withErrorAndHost (p : Pending) (s : State) :
    complete p (s.withErrorAndHost err code inbox outbox slack) =
      (complete p s).withErrorAndHost err code inbox outbox slack := by
  cases p with
  | block =>
    rw [complete, complete, completeBlock_eq, completeBlock_eq]
    rfl
  | final nb =>
    rw [complete, complete, completeFinal, State.compressAll_withErrorAndHost]
    rfl

end

/-- A completion neither reads nor writes the recorded error and the surroundings. -/
theorem EqualButErrorAndHost.complete {s t : State} (h : EqualButErrorAndHost s t) (p : Pending) :
    EqualButErrorAndHost (complete p s) (complete p t) := by
  obtain ⟨err, code, inbox, outbox, slack, rfl⟩ := h.exists_withErrorAndHost
  rw [complete_withErrorAndHost]
  rfl

theorem EqualButErrorAndHost.trans {s t u : State} (h : EqualButErrorAndHost s t) (h' : EqualButErrorAndHost t u) :
    EqualButErrorAndHost s u := by
  obtain ⟨err, code, inbox, outbox, slack, rfl⟩ := h.exists_withErrorAndHost
  exact h'

/-! ### The delay runs out -/

/-- While BUSY = 1 an event takes one off the delay and asks for nothing new. -/
theorem slack_and_inbox_of_busy_event {s t : State} {e : Event} (hbusy : s.BUSY = true) (hm : s.nextMove = .event e)
    (hst : step s = .next t) : t.slack = s.slack - 1 ∧ t.inbox ⊆ s.inbox := by
  have htail : s.inbox.tail ⊆ s.inbox := List.tail_subset _
  cases step_cases hst with
  | completion p hm' ht => cases hm.symm.trans hm'
  | idle hm' ht => cases hm.symm.trans hm'
  | reset hm' ht => exact ht ▸ ⟨rfl, htail⟩
  | wait hm' ht =>
    obtain ⟨hi, -⟩ := State.nextMove_event hm'
    have hwait : t.inbox = s.inbox := by rw [ht, waitTurn_eq, hi]; simp [hbusy]
    exact ⟨by rw [ht, waitTurn_eq]; rfl, hwait ▸ List.Subset.refl _⟩
  | read o ha hm' ht => exact ht ▸ ⟨rfl, htail⟩
  | ignored o v ha hc hj hm' ht => exact ht ▸ ⟨rfl, htail⟩
  | message j v hm' ht =>
    rw [ht, State.writeMsg_of_busy j v (s := s.takeEvent) hbusy]
    exact ⟨rfl, htail⟩
  | busy w hm' hb ht => exact ht ▸ ⟨rfl, htail⟩
  | illegal w d hm' hb hd ht => simp [hb] at hbusy
  | command w i hm' hb hd ht => simp [hb] at hbusy

/-- Within `k + 1` steps from `s` the command slot is empty, and unless a reset is to come, `p` has completed in it. -/
def CompletesWithin (k : Nat) (p : Pending) (s : State) : Prop :=
  ∃ n t, n ≤ k + 1 ∧ Reaches n s t ∧ t.PEND = none ∧ t.BUSY = false ∧
    (.reset ∉ s.inbox → EqualButErrorAndHost (complete p s) t)

theorem completesWithin_of_due {s : State} {p : Pending} (hp : s.PEND = some p) (hdue : s.slack = 0 ∨ s.inbox = [])
    (k : Nat) : CompletesWithin k p s :=
  ⟨1, complete p s, by omega, reaches_one (step_of_complete (State.nextMove_of_delay hp hdue)), complete_PEND p s,
    complete_BUSY p s, fun _ => rfl⟩

theorem completesWithin_of_reset {s : State} {p : Pending} (hm : s.nextMove = .event .reset) (k : Nat) :
    CompletesWithin k p s := by
  obtain ⟨hi, -⟩ := State.nextMove_event hm
  have hmem : Event.reset ∈ s.inbox := hi ▸ List.mem_cons_self
  exact ⟨1, s.takeEvent.platformReset, by omega, reaches_one (step_of_event hm), rfl, rfl, fun h => absurd hmem h⟩

theorem CompletesWithin.of_busy_event {s u : State} {e : Event} {p : Pending} {k : Nat} (hb : s.BUSY = true)
    (hm : s.nextMove = .event e) (hne : e ≠ .reset) (hst : step s = .next u) (h : CompletesWithin k p u) :
    CompletesWithin (k + 1) p s := by
  obtain ⟨n, t, hn, hr, hpend, hbusy, hcomplete⟩ := h
  obtain ⟨-, hsub⟩ := slack_and_inbox_of_busy_event hb hm hst
  refine ⟨n + 1, t, by omega, reaches_succ hst hr, hpend, hbusy, fun hno => ?_⟩
  exact ((equalButErrorAndHost_of_busy_event hb hm hne hst).complete p).trans (hcomplete fun hu => hno (hsub hu))

theorem completesWithin_slack {s : State} {p : Pending} (hp : s.PEND = some p) (hb : s.BUSY = true)
    (hadm : s.Admitted) : CompletesWithin s.slack p s := by
  induction hk : s.slack generalizing s with
  | zero => exact completesWithin_of_due hp (.inl hk) 0
  | succ k ih =>
    cases hi : s.inbox with
    | nil => exact completesWithin_of_due hp (.inr hi) (k + 1)
    | cons e es =>
      have hm : s.nextMove = .event e := State.nextMove_of_slack hi (.inr (by omega))
      by_cases hne : e = .reset
      · exact completesWithin_of_reset (hne ▸ hm) (k + 1)
      · obtain ⟨u, hu⟩ := performEvent_answers (hadm e (by simp [hi])) s.takeEvent
        have hst : step s = .next u := (step_of_event hm).trans hu
        have heq := equalButErrorAndHost_of_busy_event hb hm hne hst
        obtain ⟨hslack, hsub⟩ := slack_and_inbox_of_busy_event hb hm hst
        refine CompletesWithin.of_busy_event hb hm hne hst (ih ?pend ?busy (fun f hf => hadm f (hsub hf)) (by omega))
        case pend => rw [heq]; exact hp
        case busy => rw [heq]; exact hb

/-- Settles O43: the delay bounds the steps before the completion, and none of them touches what it reads. -/
theorem pendingCommandCompletes : Obligations.PendingCommandCompletes := by
  intro s p hinv hadm hp
  have hb : s.BUSY = true := by rw [hinv.busy_pend, hp]; rfl
  obtain ⟨n, t, hn, hr, hpend, hbusy, hcomplete⟩ := completesWithin_slack hp hb hadm
  refine ⟨n, t, hn, hr, hpend, hbusy, fun hno => ?_⟩
  rw [hcomplete hno]
  exact ⟨⟨rfl, rfl, rfl, rfl⟩, rfl, rfl, rfl⟩

end Sys2Proof.Machine
end

section
/-! The host's sequence for a message (44_commands.md R224) computes the source's hash. A part of the sequence is
described by what it makes of H, LEN, MSG and PHASE (`Performs`), whatever bystanders come in between and wherever the
completions fall; the descriptions of the parts compose to that of the whole. -/

namespace Sys2Proof.Machine

open Sys2Proof.Claims

/-! ### The source's blocks (43_accumulate_digest.md R184) -/

theorem length_of_mem_blocksOf {m B : List Byte} (h : B ∈ blocksOf m) : B.length = 64 := by
  obtain ⟨i, hi, rfl⟩ := List.mem_map.1 h
  have hlt : i < m.length / 64 := List.mem_range.1 hi
  rw [List.length_take, List.length_drop]
  omega

theorem length_blocksOf (m : List Byte) : (blocksOf m).length = m.length / 64 := by simp [blocksOf]

/-- The first `n` blocks are the first `64 n` bytes. -/
theorem flatten_blocks_eq_take (m : List Byte) (n : Nat) :
    ((List.range n).map fun i => (m.drop (64 * i)).take 64).flatten = m.take (64 * n) := by
  induction n with
  | zero => simp
  | succ n ih => simp [List.range_succ, ih, Nat.mul_succ, List.take_add]

/-- The whole blocks of a message and the rest of it. -/
theorem flatten_blocksOf_append (m : List Byte) :
    (blocksOf m).flatten ++ m.drop (64 * (m.length / 64)) = m := by
  rw [blocksOf, flatten_blocks_eq_take, List.take_append_drop]

theorem blocksOf_append {B : List Byte} (hB : B.length = 64) (p : List Byte) : blocksOf (B ++ p) = B :: blocksOf p := by
  have hlen : (B ++ p).length / 64 = p.length / 64 + 1 := by rw [List.length_append, hB]; omega
  have hdrop (i : Nat) : (B ++ p).drop (64 * (i + 1)) = p.drop (64 * i) := by
    rw [List.drop_append, List.drop_eq_nil_of_le (by omega), List.nil_append, hB]
    congr 1
  rw [blocksOf, hlen, List.range_succ_eq_map, List.map_cons, List.map_map]
  refine congrArg₂ List.cons ?first (List.map_congr_left fun i _ => by rw [Function.comp_apply, hdrop])
  case first => rw [Nat.mul_zero, List.drop_zero, List.take_left' hB]

theorem blocksOf_flatten {Bs : List (List Byte)} (h : ∀ B ∈ Bs, B.length = 64) : blocksOf Bs.flatten = Bs := by
  induction Bs with
  | nil => rfl
  | cons B Bs ih =>
    rw [List.flatten_cons, blocksOf_append (h B List.mem_cons_self), ih fun C hC => h C (List.mem_cons_of_mem B hC)]

/-! ### The bytes that LOADBLK and LOADPART put into MSG (30_encoding.md R100) -/

theorem wordByte_append (a b c d : Byte) :
    wordByte (a ++ b ++ c ++ d) 0 = a ∧ wordByte (a ++ b ++ c ++ d) 1 = b ∧ wordByte (a ++ b ++ c ++ d) 2 = c ∧
      wordByte (a ++ b ++ c ++ d) 3 = d := by
  have hd (i : Nat) : (a ++ b ++ c ++ d).extractLsb' (i + 8) 8 = (a ++ b ++ c).extractLsb' i 8 :=
    BitVec.extractLsb'_append_eq_of_le (Nat.le_add_left 8 i)
  have hc (i : Nat) : (a ++ b ++ c).extractLsb' (i + 8) 8 = (a ++ b).extractLsb' i 8 :=
    BitVec.extractLsb'_append_eq_of_le (Nat.le_add_left 8 i)
  exact ⟨(hd 16).trans ((hc 8).trans BitVec.extractLsb'_append_eq_left),
    (hd 8).trans ((hc 0).trans BitVec.extractLsb'_append_eq_right), (hd 0).trans BitVec.extractLsb'_append_eq_right,
    BitVec.extractLsb'_append_eq_right⟩

/-- Byte k of word j of a list of bytes is its byte 4j + k. -/
theorem wordByte_wordOf (B : List Byte) (j : Nat) {k : Nat} (hk : k < 4) :
    wordByte (wordOf B j) k = B.getD (4 * j + k) 0 := by
  obtain ⟨h0, h1, h2, h3⟩ := wordByte_append (B.getD (4 * j) 0) (B.getD (4 * j + 1) 0) (B.getD (4 * j + 2) 0)
    (B.getD (4 * j + 3) 0)
  match k with
  | 0 => exact h0
  | 1 => exact h1
  | 2 => exact h2
  | 3 => exact h3

/-- MSG after its first `n` words are written from the bytes `B`. -/
def loadWords (B : List Byte) (n : Nat) (M : Vector Word 16) : Vector Word 16 :=
  Vector.ofFn fun j => if j.val < n then wordOf B j.val else M[j]

theorem loadWords_zero (B : List Byte) (M : Vector Word 16) : loadWords B 0 M = M := by
  ext j hj
  simp [loadWords]

theorem set_loadWords (B : List Byte) {n : Nat} (hn : n < 16) (M : Vector Word 16) :
    (loadWords B n M).set n (wordOf B n) = loadWords B (n + 1) M := by
  ext j hj : 1
  rw [Vector.getElem_set]
  by_cases h : n = j
  · simp [loadWords, h]
  · have hle : j ≤ n ↔ j < n := by omega
    simp [loadWords, h, hle]

/-- The words that `T` takes up hold the bytes of `T`, whatever shares the last word with them (40_padding.md R118). -/
theorem take_msgBytes_loadWords {T : List Byte} (hT : T.length ≤ 64) (spare : List Byte) (M : Vector Word 16) :
    (msgBytes (loadWords (T ++ spare) ((T.length + 3) / 4) M)).take T.length = T := by
  refine List.ext_getElem (by simpa using hT) fun k hk hkT => ?_
  have hk64 : k < 64 := by omega
  have hword : k / 4 < (T.length + 3) / 4 := by omega
  have hbyte : 4 * (k / 4) + k % 4 = k := by omega
  rw [List.getElem_take, msgBytes_getElem _ k hk64, loadWords, Vector.getElem_ofFn, if_pos hword,
    wordByte_wordOf _ _ (by omega), hbyte, List.getD_append _ _ _ _ hkT, List.getD_eq_getElem _ _ hkT]

theorem msgBytes_loadWords {B : List Byte} (hB : B.length = 64) (M : Vector Word 16) :
    msgBytes (loadWords B 16 M) = B := by
  have h := take_msgBytes_loadWords hB.le [] M
  rwa [List.append_nil, hB, List.take_of_length_le (by simp)] at h

theorem toNat_ofNat_length {T : List Byte} (hT : T.length < 64) : (BitVec.ofNat 6 T.length).toNat = T.length :=
  Nat.mod_eq_of_lt hT

theorem partialBlock_loadWords {T : List Byte} (hT : T.length < 64) (spare : List Byte) (M : Vector Word 16) :
    partialBlock (loadWords (T ++ spare) ((T.length + 3) / 4) M) (BitVec.ofNat 6 T.length) = T := by
  rw [partialBlock, toNat_ofNat_length hT, take_msgBytes_loadWords hT.le]

/-! ### Bystanders, WAIT and the script -/

/-- The surroundings' fields, in the place of those of `s`. -/
def State.withHost (s : State) (inbox : List Event) (outbox : List Word) (slack : Nat) : State :=
  { s with inbox := inbox, outbox := outbox, slack := slack }

/-- A bystander is a read or an ignored write: it changes at most the record of what the host has read. -/
theorem performEvent_of_bystander {b : Event} (hb : bystander b = true) (s : State) :
    ∃ vs, performEvent b s = .next { s with outbox := vs } := by
  match b, hb with
  | .bus (.read size o), hb => exact ⟨_, if_pos hb⟩
  | .bus (.write size o v), hb =>
    obtain ⟨hadm, hreg⟩ := Bool.and_eq_true_iff.1 hb
    refine ⟨s.outbox, (if_pos hadm).trans ?_⟩
    cases hr : regAt o with
    | cmd => simp [hr] at hreg
    | msg j => simp [hr] at hreg
    | status => rfl
    | lenLo => rfl
    | lenHi => rfl
    | hash i => rfl
    | reserved => rfl

theorem step_of_bystander {s : State} {b : Event} {es : List Event} (hi : s.inbox = b :: es)
    (hturn : s.PEND = none ∨ s.slack ≠ 0) (hb : bystander b = true) :
    ∃ vs, step s = .next (s.withHost es vs (s.slack - 1)) := by
  rw [step_of_inbox hi hturn]
  exact performEvent_of_bystander hb _

theorem waitTurn_of_not_busy {s : State} (h : s.BUSY = false) :
    waitTurn s = s.withHost s.inbox (s.outbox ++ [s.statusWord]) s.slack := by
  rw [waitTurn_eq, if_neg (by simp [h])]
  rfl

theorem step_of_wait_of_busy {s : State} {es : List Event} (hi : s.inbox = .wait :: es)
    (hturn : s.PEND = none ∨ s.slack ≠ 0) (hb : s.BUSY = true) :
    step s = .next (s.withHost (.wait :: es) (s.outbox ++ [s.statusWord]) (s.slack - 1)) := by
  rw [step_of_wait hi hturn, if_pos hb]
  rfl

/-- With nothing pending, bystanders are performed one after another. -/
theorem exists_bystanders_performed {bs es : List Event} (hbs : ∀ b ∈ bs, bystander b = true) {s : State}
    (hp : s.PEND = none) (hi : s.inbox = bs ++ es) : ∃ n vs k, Reaches n s (s.withHost es vs k) := by
  induction bs generalizing s with
  | nil => exact ⟨0, s.outbox, s.slack, by rw [← List.nil_append es, ← hi]; rfl⟩
  | cons b bs ih =>
    obtain ⟨vs, hst⟩ := step_of_bystander hi (.inl hp) (hbs b List.mem_cons_self)
    obtain ⟨n, ws, k, hr⟩ := ih (fun c hc => hbs c (List.mem_cons_of_mem b hc))
      (s := s.withHost (bs ++ es) vs (s.slack - 1)) hp rfl
    exact ⟨n + 1, ws, k, reaches_succ hst hr⟩

/-- The events of the host's sequence, without the bystanders. -/
def scripted (es : List Event) : List Event := es.filter fun e => !bystander e

theorem scripted_cons_of_bystander {b : Event} (hb : bystander b = true) (es : List Event) :
    scripted (b :: es) = scripted es := by
  simp [scripted, hb]

theorem scripted_cons_of_not_bystander {e : Event} (he : bystander e = false) (es : List Event) :
    scripted (e :: es) = e :: scripted es := by
  simp [scripted, he]

/-- With nothing pending, the first scripted event gets its turn. -/
theorem exists_scripted_due {s : State} {e : Event} {q : List Event} (hp : s.PEND = none)
    (hq : scripted s.inbox = e :: q) :
    ∃ n es vs k, Reaches n s (s.withHost (e :: es) vs k) ∧ scripted es = q := by
  obtain ⟨bs, es, hi, hbs, -, hes⟩ := List.filter_eq_cons_iff.1 hq
  obtain ⟨n, vs, k, hr⟩ := exists_bystanders_performed (by simpa using hbs) hp hi
  exact ⟨n, es, vs, k, hr, hes⟩

/-- With nothing pending and nothing scripted, the inbox runs empty. -/
theorem exists_inbox_empty {s : State} (hp : s.PEND = none) (hq : scripted s.inbox = []) :
    ∃ n vs k, Reaches n s (s.withHost [] vs k) :=
  exists_bystanders_performed (by simpa [scripted] using hq) hp (List.append_nil _).symm

/-! ### The registers while the host's sequence runs -/

/-- What the host's sequence computes with. -/
structure Registers where
  H : Vector Word 8
  LEN : Len
  MSG : Vector Word 16
  PHASE : Phase

/-- The registers after INIT (44_commands.md R205). -/
def Registers.initial : Registers := ⟨H0, 0, clearedMsg, .active⟩

theorem Registers.initial_LEN : Registers.initial.LEN = 0#64 := rfl

/-- The registers after the completion of `p` (44_commands.md R211, R216). -/
def Registers.complete (r : Registers) (p : Pending) : Registers where
  H := completedH r.H r.MSG r.LEN p
  LEN := completedLen r.LEN p
  MSG := completedMsg r.MSG p
  PHASE := completedPhase r.PHASE p

/-- The slot holds `pend`, no error is recorded, and the registers are `r`. -/
structure Holds (pend : Option Pending) (r : Registers) (s : State) : Prop where
  PEND : s.PEND = pend
  BUSY : s.BUSY = pend.isSome
  ERR : s.ERR = false
  registers : r = ⟨s.H, s.LEN, s.MSG, s.PHASE⟩

theorem Holds.withHost {pend : Option Pending} {r : Registers} {s : State} (h : Holds pend r s) (inbox : List Event)
    (outbox : List Word) (slack : Nat) : Holds pend r (s.withHost inbox outbox slack) :=
  ⟨h.PEND, h.BUSY, h.ERR, h.registers⟩

theorem Holds.complete {p : Pending} {r : Registers} {s : State} (h : Holds (some p) r s) :
    Holds none (r.complete p) (complete p s) where
  PEND := complete_PEND p s
  BUSY := complete_BUSY p s
  ERR := (complete_ERR p s).trans h.ERR
  registers := by simp [h.registers, Registers.complete]

/-- From `s` a run comes to rest with registers `r` and the script `q` left to do. -/
def RestsAt (r : Registers) (q : List Event) (s : State) : Prop :=
  ∃ n t, Reaches n s t ∧ Holds none r t ∧ scripted t.inbox = q

theorem RestsAt.refl {r : Registers} {q : List Event} {s : State} (h : Holds none r s) (hq : scripted s.inbox = q) :
    RestsAt r q s := ⟨0, s, rfl, h, hq⟩

theorem RestsAt.of_reaches {r : Registers} {q : List Event} {n : Nat} {s u : State} (hr : Reaches n s u)
    (h : RestsAt r q u) : RestsAt r q s := by
  obtain ⟨m, t, hrt, ht⟩ := h
  exact ⟨n + m, t, reaches_trans hr hrt, ht⟩

/-- The scripted events `es` turn the registers `r` into `r'`, with bystanders in between and wherever completions
fall. -/
def Performs (es : List Event) (r r' : Registers) : Prop :=
  ∀ ⦃s : State⦄ ⦃q : List Event⦄, Holds none r s → scripted s.inbox = es ++ q → RestsAt r' q s

theorem Performs.nil (r : Registers) : Performs [] r r := fun _ _ h hq => .refl h hq

theorem Performs.append {es fs : List Event} {r r' r'' : Registers} (h : Performs es r r') (h' : Performs fs r' r'') :
    Performs (es ++ fs) r r'' := by
  intro s q hs hq
  obtain ⟨n, t, hr, ht, hqt⟩ := h hs (hq.trans (List.append_assoc es fs q))
  exact .of_reaches hr (h' ht hqt)

/-! ### One scripted event -/

/-- A scripted event that comes next while nothing is pending is performed. -/
theorem RestsAt.of_event {s : State} {e : Event} {q q' : List Event} {r : Registers} (hp : s.PEND = none)
    (hq : scripted s.inbox = e :: q')
    (h : ∀ es vs k, scripted es = q' → ∃ u, performEvent e (s.withHost es vs k) = .next u ∧ RestsAt r q u) :
    RestsAt r q s := by
  obtain ⟨n, es, vs, k, hr, hes⟩ := exists_scripted_due hp hq
  obtain ⟨u, hu, hrest⟩ := h es vs (k - 1) hes
  have hst : step (s.withHost (e :: es) vs k) = .next u :=
    (step_of_inbox (s := s.withHost (e :: es) vs k) rfl (.inl hp)).trans hu
  exact .of_reaches hr (.of_reaches (reaches_one hst) hrest)

/-- The write of a command's word runs the command. -/
theorem performEvent_command (i : Instr) (s : State) : performEvent (command i) s = exec i s :=
  issueCmd_of_decode (decode_encode i) s

/-- INIT gives the registers their initial values and clears a recorded error (44_commands.md R205). -/
theorem restsAt_of_init {s : State} {q : List Event} (hp : s.PEND = none) (hb : s.BUSY = false)
    (hq : scripted s.inbox = command .init :: q) : RestsAt .initial q s := by
  refine .of_event hp hq fun es vs k hes => ?_
  refine ⟨(s.withHost es vs k).startComputation, ?_, .refl ⟨hp, hb, rfl, rfl⟩ hes⟩
  exact (performEvent_command .init _).trans (exec_of_not_busy .init hb)

theorem performs_writeMsg (j : Fin 16) (v : Word) (r : Registers) :
    Performs [wr (msgOffset j.val) v] r { r with MSG := r.MSG.set j v } := by
  intro s q hs hq
  refine .of_event hs.PEND hq fun es vs k hes => ?_
  refine ⟨{ s.withHost es vs k with MSG := s.MSG.set j v }, ?_, .refl ⟨hs.PEND, hs.BUSY, hs.ERR, ?_⟩ hes⟩
  · exact (performAccess_write_of_regAt (msgOffset_aligned j) (regAt_msg j) v _).trans
      (congrArg Host.Outcome.next (State.writeMsg_of_not_busy j v (s := s.withHost es vs k) hs.BUSY))
  · rw [hs.registers]
    rfl

/-- With nothing pending WAIT ends at once. -/
theorem performs_wait (r : Registers) : Performs [.wait] r r := by
  intro s q hs hq
  refine .of_event hs.PEND hq fun es vs k hes => ⟨_, ?_, .refl (hs.withHost es (vs ++ [s.statusWord]) k) hes⟩
  exact congrArg Host.Outcome.next (waitTurn_of_not_busy (s := s.withHost es vs k) hs.BUSY)

/-- While a command is pending bystanders and turns of WAIT pass; it completes, and WAIT ends. -/
theorem restsAt_of_pending {s : State} {p : Pending} {r : Registers} {q : List Event} (hs : Holds (some p) r s)
    (hq : scripted s.inbox = .wait :: q) : RestsAt (r.complete p) q s := by
  induction hk : s.slack generalizing s with
  | zero =>
    have hst : step s = .next (complete p s) := step_of_complete (State.nextMove_of_delay hs.PEND (.inl hk))
    have hwait : scripted (complete p s).inbox = .wait :: q := by rw [complete_inbox, hq]
    exact .of_reaches (reaches_one hst) (performs_wait _ hs.complete hwait)
  | succ k ih =>
    cases hi : s.inbox with
    | nil => simp [hi, scripted] at hq
    | cons e es =>
      have hturn : s.PEND = none ∨ s.slack ≠ 0 := .inr (by omega)
      have hk' : s.slack - 1 = k := by omega
      rw [hi] at hq
      cases he : bystander e with
      | true =>
        obtain ⟨vs, hst⟩ := step_of_bystander hi hturn he
        rw [scripted_cons_of_bystander he] at hq
        exact .of_reaches (reaches_one hst) (ih (hs.withHost es vs _) hq hk')
      | false =>
        obtain ⟨rfl, -⟩ := List.cons_eq_cons.1 ((scripted_cons_of_not_bystander he es).symm.trans hq)
        have hst := step_of_wait_of_busy hi hturn hs.BUSY
        exact .of_reaches (reaches_one hst) (ih (hs.withHost (.wait :: es) _ _) hq hk')

/-- A command that the slot takes and the WAIT after it: from the issue to the completion. -/
theorem performs_pendingInstr (p : Pending) {r : Registers} (hphase : r.PHASE = .active) :
    Performs [command (pendingInstr p), .wait] r (r.complete p) := by
  intro s q hs hq
  refine .of_event (q' := .wait :: q) hs.PEND hq fun es vs k hes =>
    ⟨(s.withHost es vs k).setPending p, ?issue, ?rest⟩
  case issue =>
    rw [hs.registers] at hphase
    exact (performEvent_command _ _).trans (exec_pendingInstr_of_active p hs.BUSY hphase)
  case rest => exact restsAt_of_pending ⟨rfl, rfl, hs.ERR, hs.registers⟩ hes

/-! ### The parts of the host's sequence -/

theorem performs_loadWords (B : List Byte) (r : Registers) {n : Nat} (hn : n ≤ 16) :
    Performs ((List.range n).map fun j => wr (msgOffset j) (wordOf B j)) r
      { r with MSG := loadWords B n r.MSG } := by
  induction n with
  | zero =>
    rw [loadWords_zero]
    exact .nil r
  | succ n ih =>
    rw [List.range_succ, List.map_append, ← set_loadWords B hn]
    exact (ih (by omega)).append (performs_writeMsg ⟨n, hn⟩ (wordOf B n) _)

/-- The registers after one full block of the message. -/
def Registers.afterBlock (r : Registers) (B : List Byte) : Registers where
  H := compressBlock r.H B
  LEN := r.LEN + 512
  MSG := loadWords B 16 r.MSG
  PHASE := r.PHASE

theorem performs_hashBlock {B : List Byte} (hB : B.length = 64) {r : Registers} (hphase : r.PHASE = .active) :
    Performs (hashBlock B) r (r.afterBlock B) := by
  have hafter : Registers.complete { r with MSG := loadWords B 16 r.MSG } .block = r.afterBlock B := by
    rw [Registers.complete, completedH, msgBytes_loadWords hB]
    rfl
  exact hafter ▸ (performs_loadWords B r (Nat.le_refl 16)).append (performs_pendingInstr .block hphase)

theorem performs_hashBlocks {Bs : List (List Byte)} (hBs : ∀ B ∈ Bs, B.length = 64) {r : Registers}
    (hphase : r.PHASE = .active) : Performs (Bs.flatMap hashBlock) r (Bs.foldl Registers.afterBlock r) := by
  induction Bs generalizing r with
  | nil => exact .nil r
  | cons B Bs ih =>
    exact (performs_hashBlock (hBs B List.mem_cons_self) hphase).append
      (ih (fun C hC => hBs C (List.mem_cons_of_mem B hC)) hphase)

theorem foldl_afterBlock (Bs : List (List Byte)) (r : Registers) :
    (Bs.foldl Registers.afterBlock r).H = Bs.foldl compressBlock r.H ∧
      (Bs.foldl Registers.afterBlock r).LEN = r.LEN + BitVec.ofNat 64 (512 * Bs.length) ∧
      (Bs.foldl Registers.afterBlock r).PHASE = r.PHASE := by
  induction Bs generalizing r with
  | nil => simp
  | cons B Bs ih =>
    obtain ⟨hH, hLEN, hPHASE⟩ := ih (r.afterBlock B)
    refine ⟨hH, hLEN.trans ?_, hPHASE⟩
    simp [Registers.afterBlock, Nat.mul_succ, BitVec.ofNat_add, BitVec.add_assoc, BitVec.add_comm]

theorem performs_hashLast {T : List Byte} (hT : T.length < 64) (spare : List Byte) {r : Registers}
    (hphase : r.PHASE = .active) :
    Performs (hashLast T spare) r
      (Registers.complete { r with MSG := loadWords (T ++ spare) ((T.length + 3) / 4) r.MSG }
        (.final (BitVec.ofNat 6 T.length))) :=
  (performs_loadWords (T ++ spare) r (by omega)).append (performs_pendingInstr (.final _) hphase)

/-! ### The whole sequence -/

/-- The bytes of the message after its last full block. -/
def lastPart (m : List Byte) : List Byte := m.drop (64 * (m.length / 64))

theorem length_lastPart (m : List Byte) : (lastPart m).length = m.length % 64 := by
  rw [lastPart, List.length_drop]
  omega

/-- The blocks of the padded message are its full blocks and those of PadFinal (40_padding.md R119). -/
theorem blocksOf_pad {m : List Byte} {M : Vector Word 16} {nb : BitVec 6} (hP : partialBlock M nb = lastPart m) :
    blocksOf (pad m) =
      blocksOf m ++ padFinal M nb (lengthField (BitVec.ofNat 64 (512 * (blocksOf m).length)) nb) := by
  have hpad := streamingPaddingIsSourcePadding (blocksOf m) M nb fun _ => length_of_mem_blocksOf
  rw [hP, lastPart, flatten_blocksOf_append, ← List.flatten_append] at hpad
  rw [← hpad, blocksOf_flatten]
  intro B hB
  exact (List.mem_append.1 hB).elim length_of_mem_blocksOf (padFinal_block_length M nb _ B)

/-- What the host's sequence for `m` leaves in the registers. -/
structure Hashed (m : List Byte) (r : Registers) : Prop where
  PHASE : r.PHASE = .done
  MSG : r.MSG = clearedMsg
  LEN : r.LEN = BitVec.ofNat 64 (8 * m.length)
  H : r.H = (blocksOf (pad m)).foldl compressBlock H0

/-- After INIT and the full blocks of `m`, FINAL of the last part completes the hash. -/
theorem hashed_complete_final {m : List Byte} {r : Registers} (hH : r.H = (blocksOf m).foldl compressBlock H0)
    (hLEN : r.LEN = BitVec.ofNat 64 (512 * (blocksOf m).length))
    (hP : partialBlock r.MSG (BitVec.ofNat 6 (lastPart m).length) = lastPart m) :
    Hashed m (r.complete (.final (BitVec.ofNat 6 (lastPart m).length))) where
  PHASE := rfl
  MSG := rfl
  LEN := by
    have hlen := length_lastPart m
    have hnb := toNat_ofNat_length (T := lastPart m) (by omega)
    rw [Registers.complete, completedLen, hLEN, lengthField_after_blocks, hnb, length_blocksOf, hlen, Nat.div_add_mod]
  H := by rw [Registers.complete, completedH, blocksOf_pad hP, List.foldl_append, ← hH, hLEN]

/-- After INIT the rest of the host's sequence computes the hash. -/
theorem exists_performs_hashed (m spare : List Byte) :
    ∃ r, Hashed m r ∧ Performs ((blocksOf m).flatMap hashBlock ++ hashLast (lastPart m) spare) .initial r := by
  have hT : (lastPart m).length < 64 := by
    rw [length_lastPart]
    omega
  have hBs : ∀ B ∈ blocksOf m, B.length = 64 := fun _ => length_of_mem_blocksOf
  obtain ⟨hH, hLEN, hPHASE⟩ := foldl_afterBlock (blocksOf m) .initial
  rw [Registers.initial_LEN, BitVec.zero_add] at hLEN
  refine ⟨_, ?hashed, (performs_hashBlocks hBs rfl).append (performs_hashLast hT spare hPHASE)⟩
  case hashed => exact hashed_complete_final hH hLEN (partialBlock_loadWords hT spare _)

/-- Settles O60: INIT, then the parts of the sequence that take the blocks of the padded message in order. -/
theorem interfaceComputesTheHash : Obligations.InterfaceComputesTheHash := by
  rintro m spare es s hb hp rfl hq
  obtain ⟨r, hhash, hrun⟩ := exists_performs_hashed m spare
  obtain ⟨n₁, t₁, hr₁, ht₁, hq₁⟩ := restsAt_of_init hp hb hq
  obtain ⟨n₂, t₂, hr₂, ht₂, hq₂⟩ := hrun ht₁ (hq₁.trans (List.append_nil _).symm)
  obtain ⟨n₃, vs, k, hr₃⟩ := exists_inbox_empty ht₂.PEND hq₂
  obtain rfl := ht₂.registers
  refine ⟨n₁ + (n₂ + n₃), t₂.withHost [] vs k, reaches_trans hr₁ (reaches_trans hr₂ hr₃), rfl,
    ⟨hhash.PHASE, ht₂.BUSY⟩, ?len, fun j => ?msg, ht₂.ERR, ?hash⟩
  case len => exact (congrArg BitVec.toNat hhash.LEN).trans (BitVec.toNat_ofNat ..)
  case msg => exact (congrArg (·[j]) hhash.MSG).trans (Vector.getElem_replicate j.isLt)
  case hash => exact congrArg digest hhash.H

end Sys2Proof.Machine
end

section
/-! The errors: what raising one changes, which cause a CMD write records, and what BUSY = 1 refuses
(60_exceptions.md R250, R253, R254, R255). -/

namespace Sys2Proof.Machine

open Sys2Proof.Claims

/-! ### The first error is recorded -/

theorem State.raiseError_of_no_error (code : ErrCode) {s : State} (h : s.ERR = false) :
    s.raiseError code = { s with ERR := true, ERRCODE := code } := by
  simp [State.raiseError, h]

theorem State.raiseError_of_error (code : ErrCode) {s : State} (h : s.ERR = true) : s.raiseError code = s := by
  rw [State.raiseError, if_pos h, ← h]

/-- Settles O8: the two cases of ERR. -/
theorem firstErrorIsRecorded : Obligations.FirstErrorIsRecorded :=
  fun code _ => ⟨State.raiseError_of_no_error code, State.raiseError_of_error code⟩

/-- Settles O12: the word decodes to its command, whose issue outside ACTIVE only raises SEQUENCE. -/
theorem sequenceErrorDiscardsTheCommand : Obligations.SequenceErrorDiscardsTheCommand := by
  rintro i s hb hphase (rfl | ⟨nb, rfl⟩)
  · exact (performEvent_command .block s).trans (exec_pendingInstr_of_not_active .block hb hphase)
  · exact (performEvent_command (.final nb) s).trans (exec_pendingInstr_of_not_active (.final nb) hb hphase)

/-! ### The cause that a CMD write records -/

/-- ERRCODE is `code`, and ERR says whether it is an error (10_state.md R35). -/
def Records (code : ErrCode) (t : State) : Prop := t.ERRCODE = code ∧ (t.ERR = true ↔ t.ERRCODE ≠ .none)

theorem records_none {t : State} (herr : t.ERR = false) (hcode : t.ERRCODE = .none) : Records .none t :=
  ⟨hcode, by simp [herr, hcode]⟩

theorem records_raiseError {code : ErrCode} (hcode : code ≠ .none) {s : State} (herr : s.ERR = false) :
    Records code (s.raiseError code) := by
  rw [State.raiseError_of_no_error code herr]
  exact ⟨rfl, iff_of_true rfl hcode⟩

/-- The issue of BLOCK or FINAL records SEQUENCE exactly outside ACTIVE (60_exceptions.md R253). -/
theorem records_issueInActive (p : Pending) {s : State} (herr : s.ERR = false) (hcode : s.ERRCODE = .none) :
    Records (if s.PHASE = .active then .none else .sequence) (s.issueInActive p) := by
  rcases s.issueInActive_cases p with ⟨hphase, heq⟩ | ⟨hphase, heq⟩
  · rw [heq, if_pos hphase]
    exact records_none herr hcode
  · rw [heq, if_neg hphase]
    exact records_raiseError (by decide) herr

/-- Settles O11: the checks of a CMD write come in the order of the causes. -/
theorem errorCausesHavePriority : Obligations.ErrorCausesHavePriority := by
  intro w s herr hcode
  refine ⟨_, (performAccess_cmd w s).trans (issueCmd_eq w s), ?_⟩
  cases s.BUSY with
  | true => exact records_raiseError (by decide) herr
  | false =>
    cases decode w with
    | error e => exact records_raiseError (by decide) herr
    | ok i =>
      cases i with
      | nop => exact records_none herr hcode
      | init => exact records_none rfl rfl
      | block => exact records_issueInActive .block herr hcode
      | final nb => exact records_issueInActive (.final nb) herr hcode
      | clrerr => exact records_none rfl rfl

/-! ### Accesses while BUSY = 1 -/

theorem issueCmd_of_busy (v : Word) {s : State} (h : s.BUSY = true) :
    issueCmd v s = .next (s.raiseError .busy) := if_pos h

/-- Every write but to CMD and MSG is ignored (20_memory.md R71, R73). -/
theorem writeReg_of_not_writable {r : Reg} (hcmd : r ≠ .cmd) (hmsg : ∀ j, r ≠ .msg j) (v : Word) (s : State) :
    writeReg r v s = .next s := by
  cases r with
  | cmd => exact absurd rfl hcmd
  | msg j => exact absurd rfl (hmsg j)
  | status | lenLo | lenHi | hash | reserved => rfl

theorem regAt_ne_msg {o : BitVec 8} (ha : o.toNat % 4 = 0) (ho : o.toNat < 0x40 ∨ 0x80 ≤ o.toNat) (j : Fin 16) :
    regAt o ≠ .msg j := by
  intro hr
  have hoffset := congrArg BitVec.toNat (offset_of_regAt_msg ha hr)
  rw [BitVec.toNat_ofNat] at hoffset
  omega

/-- Settles O10: CMD and MSG check BUSY, and no other offset selects one of them. -/
theorem busyRefusesCommandAndMessageWrites : Obligations.BusyRefusesCommandAndMessageWrites := by
  intro s hb
  refine ⟨fun w => ?cmd, fun i => exec_of_busy i hb, fun j w => ?msg, fun o ha => ⟨_, performAccess_read o s ha⟩,
    fun o w ha hzero ho => ?ignored⟩
  case cmd => exact (performAccess_cmd w s).trans (issueCmd_of_busy w hb)
  case msg =>
    obtain ⟨-, hbusy, -⟩ := messageRegistersReadAndWrite s j w
    exact hbusy hb
  case ignored =>
    have hcmd : regAt o ≠ .cmd := fun hr => hzero (congrArg BitVec.toNat (regAt_eq_cmd.1 hr))
    exact (performAccess_write o w s ha).trans (writeReg_of_not_writable hcmd (regAt_ne_msg ha ho) w s)

end Sys2Proof.Machine
end

section
/-! Reset (70_reset_and_hazards.md R280, R281) and a digest read as a series of accesses (70_reset_and_hazards.md
R285). -/

namespace Sys2Proof.Machine

/-! ### Reset -/

theorem State.statusWord_reset : State.reset.statusWord = 0 := by
  simp [State.statusWord, State.reset, Phase.bits, ErrCode.bits]

/-- Settles O39: the vectors are replicated zeros, and the other fields are as the reset state writes them. -/
theorem resetValues : Obligations.ResetValues :=
  ⟨fun i => Vector.getElem_replicate i.isLt, fun j => Vector.getElem_replicate j.isLt, rfl, rfl, rfl, rfl, rfl,
    State.statusWord_reset, rfl, rfl, fun j => Vector.getElem_replicate j.isLt, rfl⟩

/-- Settles O40: whatever is pending, the step takes the reset from the inbox and resets the engine. -/
theorem resetAbandonsThePendingCommand : Obligations.ResetAbandonsThePendingCommand := fun s hreset =>
  ⟨s.takeEvent.platformReset, step_of_event hreset, rfl⟩

/-! ### Reads of HASH in a row -/

/-- The host's read of HASH[i] (20_memory.md R64, R70). -/
def hashRead (i : Fin 8) : Event := rd (hashOffset i)

theorem step_of_hashRead {s : State} {i : Fin 8} {es : List Event} (hi : s.inbox = hashRead i :: es)
    (hturn : s.PEND = none ∨ s.slack ≠ 0) :
    step s = .next (s.withHost es (s.outbox ++ [s.H[i]]) (s.slack - 1)) :=
  (step_of_inbox hi hturn).trans (performAccess_read_of_regAt (hashOffset_aligned i) (regAt_hash i) _)

/-- Reads of HASH, in any number and order, with no completion among them: they record the words of one H. -/
theorem reaches_hashReads (is : List (Fin 8)) {s : State} {es : List Event} (hi : s.inbox = is.map hashRead ++ es)
    (hturn : s.PEND = none ∨ is.length ≤ s.slack) :
    Reaches is.length s (s.withHost es (s.outbox ++ is.map (s.H[·])) (s.slack - is.length)) := by
  induction is generalizing s with
  | nil =>
    have hes : s.inbox = es := hi
    simp [State.withHost, ← hes]
  | cons i is ih =>
    rw [List.length_cons] at hturn
    have hst := step_of_hashRead hi (hturn.imp_right (by omega))
    have hr : Reaches is.length (s.withHost (is.map hashRead ++ es) (s.outbox ++ [s.H[i]]) (s.slack - 1))
        (s.withHost es (s.outbox ++ [s.H[i]] ++ is.map (s.H[·])) (s.slack - 1 - is.length)) :=
      ih rfl (hturn.imp_right Nat.le_sub_one_of_lt)
    rw [List.append_assoc, Nat.sub_sub, Nat.add_comm 1] at hr
    exact reaches_succ hst hr

theorem readHash_eq_map_hashRead : readHash = (List.finRange 8).map hashRead := rfl

theorem toList_eq_map_finRange (H : Vector Word 8) : H.toList = (List.finRange 8).map (H[·]) := by
  rw [← List.ofFn_eq_map, ← Vector.toList_ofFn]
  exact congrArg Vector.toList Vector.ofFn_getElem.symm

/-- Settles O46: RDHASH is the eight reads of HASH in order. -/
theorem digestReadSeriesIsConsistent : Obligations.DigestReadSeriesIsConsistent := by
  intro s es hi hturn
  rw [readHash_eq_map_hashRead] at hi
  exact ⟨_, reaches_hashReads (List.finRange 8) hi hturn, rfl, by rw [toList_eq_map_finRange]; rfl, rfl, rfl⟩

end Sys2Proof.Machine
end
